-- ==== Sys2Proof/Word.lean ====
section
/-! DEFINITION. The word types of the block: every register is 8 bits wide (10_state.md R21), an event word
is 16 bits (30_encoding.md R91) and a decode key is 17 bits (R94). Bit 0 is the least significant (R14). -/

namespace Sys2Proof

/-- A register, a written value, a received or transmitted byte (R14, R21). -/
abbrev Byte := BitVec 8

/-- An event word `{KIND, Z, A, D}` (R91). -/
abbrev EventWord := BitVec 16

/-- A decode key `{LCR[7], event word}` (R94). -/
abbrev Key := BitVec 17

end Sys2Proof
end

