-- ==== Sys2Proof/Config.lean ====
section
/-! DEFINITION. The block's configuration: the parameters of 00_scope.md R8 that the spec leaves open or keeps with
alternatives. They are no state (R20); since the step is a function of the state alone, `State.params` carries them
and no event changes them (log entry 3). What the spec leaves OPEN has no body here. -/

namespace Sys2Proof

/-- `RBR_ACK_MODE` (R8, R144): how a read of address 0 "acknowledges both" causes. -/
inductive AckMode where
  /-- Acknowledge(RDI), then Acknowledge(CTI): the default. -/
  | seqRdiCti
  /-- Acknowledge(CTI), then Acknowledge(RDI). -/
  | seqCtiRdi
  /-- Both causes in one acknowledgement. -/
  | joint
  deriving DecidableEq, Repr

/-- `UNSUPPORTED_MODE` (R8, R211): what an access to an unsupported address does. -/
inductive UnsupportedMode where
  /-- The step faults: the default, the reference behaviour. -/
  | fault
  /-- The event answers an error indication and the state is unchanged. -/
  | errorReturn
  deriving DecidableEq, Repr

/-- The parameters of R8 whose value is not fixed by the spec. -/
structure Params where
  /-- `IRQ_LINE`: the number passed to the interrupt sink (R8, R10, D7). -/
  irqLine : Nat
  /-- `RBR_IDLE`: the byte a read of an empty receive buffer answers (R8, R160, D6). -/
  rbrIdle : Byte
  /-- `RBR_ACK_MODE` (R8, R144, D8). -/
  rbrAckMode : AckMode
  /-- `UNSUPPORTED_MODE` (R8, R211, D11). -/
  unsupportedMode : UnsupportedMode
  /-- `UART_BASE`: where address 0 of the block sits in the system's address space (R8, 20_memory.md R62, D24). -/
  uartBase : Nat
  deriving DecidableEq, Repr

/-- The interrupt line number of this machine: OPEN, any natural number (R8, D7; log entry 3). It has no body,
so nothing can be proved of its value. -/
opaque Config.irqLine : Nat

/-- The idle byte of this machine: OPEN, any byte, fixed for the life of the block (R8, D6, U6; log entry 3).
It has no body, so nothing can be proved of its value. -/
opaque Config.rbrIdle : Byte

/-- The base address of this machine: OPEN, the platform's (R8, D24; log entry 25). It has no body, so nothing can
be proved of its value. -/
opaque Config.uartBase : Nat

end Sys2Proof
end

