-- ==== Sys2Proof/Syntax.lean ====
section
/-! DEFINITION. The events of the block as syntax: the 23 rows of the opcode map (30_encoding.md R100), what an
agent presents to the block (R90, R91), the interrupt causes (10_state.md R37), the block's outputs (R43), and
the register names of the assembler (R112). -/

namespace Sys2Proof

/-- The direction of a bus access (R17, R211). -/
inductive Dir where
  | read
  | write
  deriving DecidableEq, Repr

/-- The five interrupt causes (R37). -/
inductive Cause where
  /-- Receiver Line Status: a priority placeholder, never generated. -/
  | rlsi
  /-- Receive Data Available: never made pending by any rule. -/
  | rdi
  /-- Character Timeout. -/
  | cti
  /-- Transmit Holding Register Empty. -/
  | thri
  /-- Modem Status: never generated. -/
  | msi
  deriving DecidableEq, Repr

/-- One output of the block (R16, R43). -/
inductive Output where
  /-- A byte given to the byte sink. -/
  | tx (b : Byte)
  /-- The interrupt sink's `raise(line)`. -/
  | raise (line : Nat)
  /-- The interrupt sink's `clear(line)`. -/
  | clear (line : Nat)
  deriving DecidableEq, Repr

/-- One event of the block, one constructor per row of the opcode map (R100). A read carries no operand (its
`D` field is ignored, R103); `rdA7` and `wrA7` carry the address, which is 7 or above (R101, R169, R190). -/
inductive Instr where
  /-- `RD.RBR` (R160). -/
  | rdRbr
  /-- `RD.DLL` (R161). -/
  | rdDll
  /-- `RD.IER` (R162). -/
  | rdIer
  /-- `RD.DLH` (R163). -/
  | rdDlh
  /-- `RD.IIR` (R164). -/
  | rdIir
  /-- `RD.LCR` (R165). -/
  | rdLcr
  /-- `RD.A4` (R166). -/
  | rdA4
  /-- `RD.LSR` (R167). -/
  | rdLsr
  /-- `RD.MSR` (R168). -/
  | rdMsr
  /-- `RD.A7` (R169). -/
  | rdA7 (a : Nat)
  /-- `WR.THR` (R180). -/
  | wrThr (v : Byte)
  /-- `WR.DLL` (R181). -/
  | wrDll (v : Byte)
  /-- `WR.IER` (R182). -/
  | wrIer (v : Byte)
  /-- `WR.DLH` (R183). -/
  | wrDlh (v : Byte)
  /-- `WR.FCR` (R184). -/
  | wrFcr (v : Byte)
  /-- `WR.LCR` (R185). -/
  | wrLcr (v : Byte)
  /-- `WR.MCR` (R186). -/
  | wrMcr (v : Byte)
  /-- `WR.A5` (R188). -/
  | wrA5 (v : Byte)
  /-- `WR.A6` (R189). -/
  | wrA6 (v : Byte)
  /-- `WR.A7` (R190). -/
  | wrA7 (a : Nat) (v : Byte)
  /-- `RX` (R200). -/
  | rx (b : Byte)
  /-- `RST` (R201). -/
  | rst
  /-- `QRST` (R203). -/
  | qrst
  deriving DecidableEq, Repr

/-- The agents that act on the block (R9). -/
inductive Agent where
  | busMaster
  | receiveSource
  | host
  deriving DecidableEq, Repr

/-- What an agent presents to the block: an event word (R91), or one of the calls of R12 and R90 with the
integers the dispatcher passes (R65, R96). -/
inductive Request where
  /-- An event word. -/
  | word (e : EventWord)
  /-- `read(addr)` of an access `width` bytes wide. -/
  | read (width addr : Nat)
  /-- `write(addr, value)` of an access `width` bytes wide. -/
  | write (width addr value : Nat)
  /-- `receive_byte(value)`. -/
  | receive (value : Nat)
  /-- The explicit reset. -/
  | reset
  /-- The queue's own reset. -/
  | queueReset
  deriving DecidableEq, Repr

/-- The register names of the assembler (R112). -/
inductive RegName where
  | rbr | thr | ier | iir | fcr | lcr | mcr | lsr | msr | dll | dlh
  deriving DecidableEq, Repr

end Sys2Proof
end

