-- ==== Sys2Proof/WellFormed.lean ====
section
/-! DEFINITION. Which instruction terms stand for an event of the opcode map, and under which value of DLAB. -/

namespace Sys2Proof

/-- The rows `RD.A7` and `WR.A7` stand for address 7 and every address above it, and for no other (30_encoding.md
R101, 42_register_reads.md R169, 43_register_writes.md R190). Every other operand is a byte, and every byte is
legal (R102). -/
def Instr.wf : Instr → Bool
  | .rdA7 a => decide (7 ≤ a)
  | .wrA7 a _ => decide (7 ≤ a)
  | .rdRbr | .rdDll | .rdIer | .rdDlh | .rdIir | .rdLcr | .rdA4 | .rdLsr | .rdMsr => true
  | .wrThr _ | .wrDll _ | .wrIer _ | .wrDlh _ | .wrFcr _ | .wrLcr _ | .wrMcr _ | .wrA5 _ | .wrA6 _ => true
  | .rx _ | .rst | .qrst => true

/-- The event can be written as an event word: its address fits the 3 bits of the field `A` (R91). -/
def Instr.hasWord : Instr → Bool
  | .rdA7 a => decide (a ≤ 7)
  | .wrA7 a _ => decide (a ≤ 7)
  | .rdRbr | .rdDll | .rdIer | .rdDlh | .rdIir | .rdLcr | .rdA4 | .rdLsr | .rdMsr => true
  | .wrThr _ | .wrDll _ | .wrIer _ | .wrDlh _ | .wrFcr _ | .wrLcr _ | .wrMcr _ | .wrA5 _ | .wrA6 _ => true
  | .rx _ | .rst | .qrst => true

/-- The values of DLAB under which the row is selected: the column DLAB of the opcode map (R100). -/
def Instr.admits : Instr → Bool → Bool
  | .rdRbr, dlab | .rdIer, dlab | .wrThr _, dlab | .wrIer _, dlab => !dlab
  | .rdDll, dlab | .rdDlh, dlab | .wrDll _, dlab | .wrDlh _, dlab => dlab
  | .rdIir, _ | .rdLcr, _ | .rdA4, _ | .rdLsr, _ | .rdMsr, _ | .rdA7 _, _ => true
  | .wrFcr _, _ | .wrLcr _, _ | .wrMcr _, _ | .wrA5 _, _ | .wrA6 _, _ | .wrA7 _ _, _ => true
  | .rx _, _ | .rst, _ | .qrst, _ => true

end Sys2Proof
end

