-- ==== Sys2Proof/Decode.lean ====
section
/-! DEFINITION. From what an agent presents to an event, and back: the event word and its fields (30_encoding.md
R91, R92), the decode order (R98, R99), the words that spell no event (R103), operand masking (R65, R96, R97),
the opcode map as rows over the 17-bit key (R94, R100), the encoder, and the assembler's names (R112). -/

namespace Sys2Proof

/-- Why something presented to the block is no event. -/
inductive DecodeError where
  /-- `KIND` is 0x5 to 0xF (R103). -/
  | badKind (e : EventWord)
  /-- The reserved bit `Z` is 1 (R103). -/
  | reservedBit (e : EventWord)
  /-- `A` is not 0 in an `RX`, `RST` or `QRST` word (R103). -/
  | strayAddress (e : EventWord)
  /-- `D` is not 0 in an `RST` or `QRST` word (R103). -/
  | strayData (e : EventWord)
  /-- An access that is not one byte wide (R65). -/
  | badWidth (width : Nat)
  deriving DecidableEq, Repr

/-! ### Fields of an event word (R91) -/

def kindField (e : EventWord) : BitVec 4 := e.extractLsb' 12 4
def zField (e : EventWord) : BitVec 1 := e.extractLsb' 11 1
def addrField (e : EventWord) : BitVec 3 := e.extractLsb' 8 3
def dataField (e : EventWord) : Byte := e.extractLsb' 0 8

/-- The event word `{KIND, Z = 0, A, D}` (R91). -/
def mkWord (kind : BitVec 4) (a : BitVec 3) (d : Byte) : EventWord :=
  kind ++ (0#1 ++ (a ++ d))

/-! ### Operand assembly (R96, R97) -/

/-- `value & 0xFF`, the first thing done to a written value (R96) and to a received one (R97, R200). -/
def maskByte (value : Nat) : Byte := BitVec.ofNat 8 (value % 256)

/-! ### Decode (R98, R99) -/

/-- The row a read of address `a` selects (R98, R101). DLAB is tested first. -/
def decodeRead (dlab : Bool) (a : Nat) : Instr :=
  if dlab = true ∧ a = 0 then .rdDll
  else if dlab = true ∧ a = 1 then .rdDlh
  else if a = 0 then .rdRbr
  else if a = 1 then .rdIer
  else if a = 2 then .rdIir
  else if a = 3 then .rdLcr
  else if a = 4 then .rdA4
  else if a = 5 then .rdLsr
  else if a = 6 then .rdMsr
  else .rdA7 a

/-- The row a write of the masked value `v` to address `a` selects (R98, R101). DLAB is tested first. -/
def decodeWrite (dlab : Bool) (a : Nat) (v : Byte) : Instr :=
  if dlab = true ∧ a = 0 then .wrDll v
  else if dlab = true ∧ a = 1 then .wrDlh v
  else if a = 0 then .wrThr v
  else if a = 1 then .wrIer v
  else if a = 2 then .wrFcr v
  else if a = 3 then .wrLcr v
  else if a = 4 then .wrMcr v
  else if a = 5 then .wrA5 v
  else if a = 6 then .wrA6 v
  else .wrA7 a v

/-- The event an event word spells under the given DLAB, or the reason it spells none (R91, R92, R103). -/
def decodeWord (dlab : Bool) (e : EventWord) : Except DecodeError Instr :=
  let kind := (kindField e).toNat
  if 5 ≤ kind then .error (.badKind e)
  else if zField e ≠ 0#1 then .error (.reservedBit e)
  else if kind = 0 then .ok (decodeRead dlab (addrField e).toNat)
  else if kind = 1 then .ok (decodeWrite dlab (addrField e).toNat (dataField e))
  else if addrField e ≠ 0#3 then .error (.strayAddress e)
  else if kind = 2 then .ok (.rx (dataField e))
  else if dataField e ≠ 0#8 then .error (.strayData e)
  else if kind = 3 then .ok .rst
  else .ok .qrst

/-- The event of a decode key `{DLAB, event word}` (R94). -/
def decodeKey (k : Key) : Except DecodeError Instr :=
  decodeWord (k.getLsbD 16) (k.setWidth 16)

/-- The event a request asks for under the given DLAB. A call is one byte wide or it is refused (R65); a
written or received integer is masked to 8 bits before anything else is looked at (R96, R97). -/
def decodeRequest (dlab : Bool) : Request → Except DecodeError Instr
  | .word e => decodeWord dlab e
  | .read width a => if width = 1 then .ok (decodeRead dlab a) else .error (.badWidth width)
  | .write width a value =>
    if width = 1 then .ok (decodeWrite dlab a (maskByte value)) else .error (.badWidth width)
  | .receive value => .ok (.rx (maskByte value))
  | .reset => .ok .rst
  | .queueReset => .ok .qrst

/-- The instruction the decoder reads from an instruction of the opcode table whose bits are `w`: bit 16 is
DLAB, bits 15:0 the event word (R94). The key has 17 bits whatever `nbits` says (the table's 17 bits in whole
bytes are 24); a `w` with a bit above the key is no key. -/
def decodeTableWord (_nbits w : Nat) : Option Instr :=
  if w < 2 ^ 17 then
    match decodeKey (BitVec.ofNat 17 w) with
    | .ok i => some i
    | .error _ => none
  else none

/-- The agent that may present a request (R9, R230). A word is presented by the agent of its event; one that
spells no event belongs to none. -/
def Request.agent : Request → Option Agent
  | .word e =>
    match decodeWord false e with
    | .error _ => none
    | .ok (.rx _) => some .receiveSource
    | .ok .rst => some .host
    | .ok .qrst => some .host
    | .ok _ => some .busMaster
  | .read _ _ => some .busMaster
  | .write _ _ _ => some .busMaster
  | .receive _ => some .receiveSource
  | .reset => some .host
  | .queueReset => some .host

/-! ### The encoder (R91, R92) -/

/-- The canonical event word of an event: `D` is 0x00 for a read (R91). -/
def encode : Instr → EventWord
  | .rdRbr => mkWord 0x0#4 0#3 0#8
  | .rdDll => mkWord 0x0#4 0#3 0#8
  | .rdIer => mkWord 0x0#4 1#3 0#8
  | .rdDlh => mkWord 0x0#4 1#3 0#8
  | .rdIir => mkWord 0x0#4 2#3 0#8
  | .rdLcr => mkWord 0x0#4 3#3 0#8
  | .rdA4 => mkWord 0x0#4 4#3 0#8
  | .rdLsr => mkWord 0x0#4 5#3 0#8
  | .rdMsr => mkWord 0x0#4 6#3 0#8
  | .rdA7 a => mkWord 0x0#4 (BitVec.ofNat 3 a) 0#8
  | .wrThr v => mkWord 0x1#4 0#3 v
  | .wrDll v => mkWord 0x1#4 0#3 v
  | .wrIer v => mkWord 0x1#4 1#3 v
  | .wrDlh v => mkWord 0x1#4 1#3 v
  | .wrFcr v => mkWord 0x1#4 2#3 v
  | .wrLcr v => mkWord 0x1#4 3#3 v
  | .wrMcr v => mkWord 0x1#4 4#3 v
  | .wrA5 v => mkWord 0x1#4 5#3 v
  | .wrA6 v => mkWord 0x1#4 6#3 v
  | .wrA7 a v => mkWord 0x1#4 (BitVec.ofNat 3 a) v
  | .rx b => mkWord 0x2#4 0#3 b
  | .rst => mkWord 0x3#4 0#3 0#8
  | .qrst => mkWord 0x4#4 0#3 0#8

/-- The decode key of an event taken with the given DLAB (R94). -/
def encodeKey (dlab : Bool) (i : Instr) : Key := BitVec.ofBool dlab ++ encode i

/-! ### The opcode map (R94, R100) -/

/-- One row of the opcode map over the decode key. -/
structure OpcodeRow where
  mnemonic : String
  pattern : Key
  mask : Key
  deriving DecidableEq, Repr

/-- An event selects the row for which `(K & mask) = match` (R94). -/
def OpcodeRow.selects (r : OpcodeRow) (k : Key) : Bool := k &&& r.mask == r.pattern

def readRows : List OpcodeRow := [
  ⟨"RD.RBR", 0x00000#17, 0x1FF00#17⟩, ⟨"RD.DLL", 0x10000#17, 0x1FF00#17⟩,
  ⟨"RD.IER", 0x00100#17, 0x1FF00#17⟩, ⟨"RD.DLH", 0x10100#17, 0x1FF00#17⟩,
  ⟨"RD.IIR", 0x00200#17, 0x0FF00#17⟩, ⟨"RD.LCR", 0x00300#17, 0x0FF00#17⟩,
  ⟨"RD.A4", 0x00400#17, 0x0FF00#17⟩, ⟨"RD.LSR", 0x00500#17, 0x0FF00#17⟩,
  ⟨"RD.MSR", 0x00600#17, 0x0FF00#17⟩, ⟨"RD.A7", 0x00700#17, 0x0FF00#17⟩]

def writeRows : List OpcodeRow := [
  ⟨"WR.THR", 0x01000#17, 0x1FF00#17⟩, ⟨"WR.DLL", 0x11000#17, 0x1FF00#17⟩,
  ⟨"WR.IER", 0x01100#17, 0x1FF00#17⟩, ⟨"WR.DLH", 0x11100#17, 0x1FF00#17⟩,
  ⟨"WR.FCR", 0x01200#17, 0x0FF00#17⟩, ⟨"WR.LCR", 0x01300#17, 0x0FF00#17⟩,
  ⟨"WR.MCR", 0x01400#17, 0x0FF00#17⟩, ⟨"WR.A5", 0x01500#17, 0x0FF00#17⟩,
  ⟨"WR.A6", 0x01600#17, 0x0FF00#17⟩, ⟨"WR.A7", 0x01700#17, 0x0FF00#17⟩]

def externalRows : List OpcodeRow := [
  ⟨"RX", 0x02000#17, 0x0FF00#17⟩, ⟨"RST", 0x03000#17, 0x0FFFF#17⟩,
  ⟨"QRST", 0x04000#17, 0x0FFFF#17⟩]

/-- The 23 rows of the opcode map, in its order. -/
def opcodeRows : List OpcodeRow := readRows ++ writeRows ++ externalRows

/-- The mnemonic of an event's row (R100). -/
def Instr.mnemonic : Instr → String
  | .rdRbr => "RD.RBR"
  | .rdDll => "RD.DLL"
  | .rdIer => "RD.IER"
  | .rdDlh => "RD.DLH"
  | .rdIir => "RD.IIR"
  | .rdLcr => "RD.LCR"
  | .rdA4 => "RD.A4"
  | .rdLsr => "RD.LSR"
  | .rdMsr => "RD.MSR"
  | .rdA7 _ => "RD.A7"
  | .wrThr _ => "WR.THR"
  | .wrDll _ => "WR.DLL"
  | .wrIer _ => "WR.IER"
  | .wrDlh _ => "WR.DLH"
  | .wrFcr _ => "WR.FCR"
  | .wrLcr _ => "WR.LCR"
  | .wrMcr _ => "WR.MCR"
  | .wrA5 _ => "WR.A5"
  | .wrA6 _ => "WR.A6"
  | .wrA7 _ _ => "WR.A7"
  | .rx _ => "RX"
  | .rst => "RST"
  | .qrst => "QRST"

/-! ### The assembler's register names (R112) -/

/-- The address a name abbreviates in `RD`. A name that no read has abbreviates none. -/
def RegName.readAddr : RegName → Option (BitVec 3)
  | .rbr => some 0#3
  | .dll => some 0#3
  | .ier => some 1#3
  | .dlh => some 1#3
  | .iir => some 2#3
  | .lcr => some 3#3
  | .lsr => some 5#3
  | .msr => some 6#3
  | .thr | .fcr | .mcr => none

/-- The address a name abbreviates in `WR`. A name that no write has abbreviates none. -/
def RegName.writeAddr : RegName → Option (BitVec 3)
  | .thr => some 0#3
  | .dll => some 0#3
  | .ier => some 1#3
  | .dlh => some 1#3
  | .fcr => some 2#3
  | .lcr => some 3#3
  | .mcr => some 4#3
  | .rbr | .iir | .lsr | .msr => none

/-- The word of the line `RD name`: the name only abbreviates the number (R112). -/
def assembleRead (r : RegName) : Option EventWord :=
  r.readAddr.map (fun a => mkWord 0x0#4 a 0#8)

/-- The word of the line `WR name, v` (R112). -/
def assembleWrite (r : RegName) (v : Byte) : Option EventWord :=
  r.writeAddr.map (fun a => mkWord 0x1#4 a v)

end Sys2Proof
end

