-- ==== Sys2Proof/Machine/Codes.lean ====
section
/-! DEFINITION. The numbers the spec decides for the block: cause codes (10_state.md R38, D1), masks (R27, R28,
R31, R33), reset values (R46, D5) and the default modes (00_scope.md R8). None of them is in the spec's source:
they are the spec's decisions from the 16550 family (log entries 4 to 8). -/

namespace Sys2Proof.Machine

/-- NO_INT, the IIR value when no cause is reported (R38). -/
def noInt : Byte := 0x01#8

/-- `code(c)`, the IIR value when cause `c` is reported (R38). -/
def code : Cause → Byte
  | .rlsi => 0x06#8
  | .rdi => 0x04#8
  | .cti => 0x0C#8
  | .thri => 0x02#8
  | .msi => 0x00#8

/-- IIR as the optional reported cause (R41): the byte of each value of the abstract view. -/
def codeOf : Option Cause → Byte
  | none => noInt
  | some c => code c

/-- LSR.DR, Data-Ready, bit 0 (R27). -/
def lsrDr : Byte := 0x01#8

/-- LSR.THRE, the source's "FIFO-Empty", bit 5 (R28). -/
def lsrThre : Byte := 0x20#8

/-- LSR.TEMT, bit 6 (R29): set at reset, changed by no rule. -/
def lsrTemt : Byte := 0x40#8

/-- The bits of IER that are stored and returned (R31). -/
def ierMask : Byte := 0x0F#8

/-- The bits of IIR that a read returns (R33). -/
def iirMask : Byte := 0x0F#8

/-- The identification bits, always set in a read of IIR (R33). -/
def iirIdBits : Byte := 0xC0#8

/-! ### Reset values (R46) -/

def resetLcr : Byte := 0x03#8
/-- DR = 0, THRE = 1, TEMT = 1. -/
def resetLsr : Byte := 0x60#8
def resetMsr : Byte := 0x00#8
def resetMcr : Byte := 0x00#8
def resetIer : Byte := 0x00#8
/-- NO_INT. -/
def resetIir : Byte := 0x01#8
def resetFcr : Byte := 0x00#8
def resetDll : Byte := 0x00#8
def resetDlh : Byte := 0x00#8

/-! ### Default modes (R8) -/

def defaultAckMode : AckMode := .seqRdiCti
def defaultUnsupportedMode : UnsupportedMode := .fault

/-- The configuration of a machine right after reset: the OPEN values have no body, the modes are the spec's
defaults (R8). -/
def defaultParams : Params :=
  { irqLine := Config.irqLine, rbrIdle := Config.rbrIdle,
    rbrAckMode := defaultAckMode, unsupportedMode := defaultUnsupportedMode,
    uartBase := Config.uartBase }

end Sys2Proof.Machine
end

