-- ==== Sys2Proof/Machine/Queue.lean ====
section
/-! DEFINITION. The CircularQueue that stores the receive FIFO: 40_circular_queue.md R120 to R136. The pseudocode
of each operation stands here step by step; `Queue.seq` is the abstract byte sequence of 10_state.md R42, R44. -/

namespace Sys2Proof.Machine

/-- Capacity of a newly created queue (00_scope.md R8, R122). -/
def queueInitCapacity : Nat := 16

/-- The floor below which the queue never shrinks (R8, R120). -/
def queueMinCapacity : Nat := 128

/-- The sentinel of slots that hold no live element (R8, R120). -/
def queueEmptyValue : Byte := 0x00#8

/-- The queue's state (R120). The capacity is the number of slots of `storage`. -/
structure Queue where
  /-- The slots, `0 .. capacity - 1`. -/
  storage : List Byte
  /-- `begin`: index of the oldest logical element. -/
  beginIdx : Nat
  /-- `end`: index of the next free slot. -/
  endIdx : Nat
  /-- `length`: number of live elements. -/
  len : Nat
  deriving DecidableEq, Repr

namespace Queue

def capacity (q : Queue) : Nat := q.storage.length

/-- The contents of a slot. No operation reads outside the storage in a well-formed queue (log entry 21). -/
def slot (q : Queue) (i : Nat) : Byte := q.storage.getD i queueEmptyValue

/-- The physical slot of logical position `i` (R121). -/
def physical (q : Queue) (i : Nat) : Nat := (q.beginIdx + i) % q.capacity

/-- The abstract byte sequence, oldest first (R44, R133). -/
def seq (q : Queue) : List Byte := (List.range q.len).map (fun i => q.slot (q.physical i))

/-- The invariants of R121. -/
abbrev Wf (q : Queue) : Prop :=
  q.len ≤ q.capacity ∧
  q.beginIdx < q.capacity ∧
  q.endIdx = (q.beginIdx + q.len) % q.capacity ∧
  2 ^ Nat.log2 q.capacity = q.capacity ∧ queueInitCapacity ≤ q.capacity ∧
  ∀ i, i < q.capacity - q.len → q.slot (q.physical (q.len + i)) = queueEmptyValue

/-- Creation (R122). -/
def new : Queue :=
  { storage := List.replicate queueInitCapacity queueEmptyValue, beginIdx := 0, endIdx := 0, len := 0 }

/-- `is_empty()` (R130); `len()` is the field `len`. -/
def isEmpty (q : Queue) : Bool := q.len == 0

/-- `get(index)` (R123): no value out of range. -/
def get? (q : Queue) (i : Nat) : Option Byte :=
  if i < q.len then some (q.slot (q.physical i)) else none

/-- Reallocation to `newcap` slots (R126): the non-wrapped segment, then the wrapped remainder, then fresh
slots; logical order starts at slot 0. -/
def realloc (q : Queue) (newcap : Nat) : Queue :=
  let n1 := min q.len (q.capacity - q.beginIdx)
  { storage := (q.storage.drop q.beginIdx).take n1 ++ q.storage.take (q.len - n1) ++
      List.replicate (newcap - q.len) queueEmptyValue
    beginIdx := 0
    endIdx := q.len % newcap
    len := q.len }

/-- The growth check of both push operations (R124, R125): when full, double. -/
def grow (q : Queue) : Queue :=
  if q.len = q.capacity then q.realloc (2 * q.capacity) else q

/-- The shrink check of both pop operations (R127). -/
def shrinkCheck (q : Queue) : Queue :=
  let cand := q.capacity / 4
  if q.len ≤ cand / 2 ∧ queueMinCapacity ≤ cand then q.realloc cand else q

/-- `push_back(value)` (R124). The new length it returns is the `len` of the result. -/
def pushBack (q : Queue) (v : Byte) : Queue :=
  let g := q.grow
  { g with storage := g.storage.set g.endIdx v, endIdx := (g.endIdx + 1) % g.capacity, len := g.len + 1 }

/-- `push_front(value)` (R125). The new length it returns is the `len` of the result. -/
def pushFront (q : Queue) (v : Byte) : Queue :=
  let g := q.grow
  let b := (g.beginIdx + g.capacity - 1) % g.capacity
  { g with storage := g.storage.set b v, beginIdx := b, len := g.len + 1 }

/-- `pop_back()` (R128). -/
def popBack (q : Queue) : Option Byte × Queue :=
  if q.len = 0 then (none, q)
  else
    let c := q.shrinkCheck
    let e := (c.endIdx + c.capacity - 1) % c.capacity
    (some (c.slot e), { c with storage := c.storage.set e queueEmptyValue, endIdx := e, len := c.len - 1 })

/-- `pop_front()` (R129). -/
def popFront (q : Queue) : Option Byte × Queue :=
  if q.len = 0 then (none, q)
  else
    let c := q.shrinkCheck
    (some (c.slot c.beginIdx),
      { c with storage := c.storage.set c.beginIdx queueEmptyValue
               beginIdx := (c.beginIdx + 1) % c.capacity
               len := c.len - 1 })

/-- The queue's own reset (R135): back to the created state. -/
def reset (_q : Queue) : Queue := new

/-- `to_joined_string(separator)` (R131). How one element is rendered is left open (D28; log entry 23): it is
an argument. -/
def toJoinedString (q : Queue) (render : Byte → String) (separator : String := ",") : String :=
  separator.intercalate (q.seq.map render)

end Queue

/-- One queue operation of the public contract (R122 to R129, R135), to speak of sequences of operations. -/
inductive QueueOp where
  | pushBack (v : Byte)
  | pushFront (v : Byte)
  | popBack
  | popFront
  | reset
  deriving DecidableEq, Repr

/-- What a queue operation returns. -/
inductive QueueResult where
  /-- The new length (`push_back`, `push_front`). -/
  | length (n : Nat)
  /-- The removed value, or no value (`pop_back`, `pop_front`). -/
  | value (v : Option Byte)
  /-- Nothing (`reset`). -/
  | done
  deriving DecidableEq, Repr

/-- One operation on the CircularQueue: what it returns and the queue it leaves. -/
def Queue.apply (q : Queue) : QueueOp → QueueResult × Queue
  | .pushBack v => (.length (q.pushBack v).len, q.pushBack v)
  | .pushFront v => (.length (q.pushFront v).len, q.pushFront v)
  | .popBack => (.value q.popBack.1, q.popBack.2)
  | .popFront => (.value q.popFront.1, q.popFront.2)
  | .reset => (.done, q.reset)

/-- The same operation on a reference double-ended queue (R133). -/
def dequeApply (l : List Byte) : QueueOp → QueueResult × List Byte
  | .pushBack v => (.length (l.length + 1), l ++ [v])
  | .pushFront v => (.length (l.length + 1), v :: l)
  | .popBack => (.value l.getLast?, l.dropLast)
  | .popFront => (.value l.head?, l.tail)
  | .reset => (.done, [])

/-- A sequence of operations on the CircularQueue: every result, in order, and the last queue. -/
def Queue.applyAll (q : Queue) : List QueueOp → List QueueResult × Queue
  | [] => ([], q)
  | op :: ops =>
    let r := q.apply op
    let rs := r.2.applyAll ops
    (r.1 :: rs.1, rs.2)

/-- The same sequence on the reference double-ended queue. -/
def dequeApplyAll (l : List Byte) : List QueueOp → List QueueResult × List Byte
  | [] => ([], l)
  | op :: ops =>
    let r := dequeApply l op
    let rs := dequeApplyAll r.2 ops
    (r.1 :: rs.1, rs.2)

end Sys2Proof.Machine
end

