-- ==== Sys2Proof/Machine/State.lean ====
section
/-! DEFINITION. The state of one UART (10_state.md R20), the reasons a step can stop, and the state right after
power-on (R46, 44_external_events.md R202). -/

namespace Sys2Proof.Machine

/-- The set of pending causes `ints` (R40) as plain data: for each cause, whether it is a member. Equal sets are
equal data (log entry 18). -/
structure CauseSet where
  rlsi : Bool
  rdi : Bool
  cti : Bool
  thri : Bool
  msi : Bool
  deriving DecidableEq, Repr

/-- What an event answers to the agent that issued it: the result column of 30_encoding.md R90 (log entry 2). -/
inductive Response where
  /-- Nothing: a write, `RX`, `RST`, `QRST`, or no event yet. -/
  | nothing
  /-- The byte a read returns. -/
  | byte (b : Byte)
  /-- The error indication of `UNSUPPORTED_MODE = ERROR_RETURN` (60_exceptions.md R211). -/
  | error (dir : Dir) (addr : Nat)
  deriving DecidableEq, Repr

/-- The state of the machine. The first thirteen fields are the record of R20; `response`, `inputs` and `params`
are the model's own (log entries 1 to 3). -/
structure State where
  /-- Line Control (R23). -/
  lcr : Byte
  /-- Line Status (R26). -/
  lsr : Byte
  /-- Modem Status (R34). -/
  msr : Byte
  /-- Modem Control (R35). -/
  mcr : Byte
  /-- Interrupt Enable (R31). -/
  ier : Byte
  /-- Interrupt Identification (R32). -/
  iir : Byte
  /-- FIFO Control (R36). -/
  fcr : Byte
  /-- Divisor Latch Low (R48). -/
  dll : Byte
  /-- Divisor Latch High (R48). -/
  dlh : Byte
  /-- The pending causes (R40). -/
  ints : CauseSet
  /-- The receive FIFO, as the CircularQueue that stores it (R42, R44, R120). -/
  fifo : Queue
  /-- The interrupt line as last driven (R43). -/
  irq : Bool
  /-- Every output so far, in order (R43). -/
  out : List Output
  /-- What the last event answered (log entry 2). -/
  response : Response
  /-- The requests of the agents not yet taken, in their total order (R73, R82; log entry 1). -/
  inputs : List Request
  /-- The configuration (R8; log entry 3). -/
  params : Params
  deriving DecidableEq, Repr

/-- Why the machine stops with a fault. -/
inductive Fault where
  /-- UnsupportedRegister (60_exceptions.md R211) under `UNSUPPORTED_MODE = FAULT`. Raised by `RD.A4`, `RD.A7`,
  `WR.A5`, `WR.A6`, `WR.A7`. Safe: the spec's own fault, and a stop proves nothing of what follows. -/
  | unsupportedRegister (dir : Dir) (addr : Nat)
  deriving DecidableEq, Repr

/-- Why the machine takes no step. -/
inductive Refusal where
  /-- An instruction without a meaning yet. Raised by an arm of `exec`. Safe: no effect is claimed. -/
  | notModelled (mnemonic : String)
  /-- No agent presents an event; the block has no step of its own (00_scope.md R9). Raised by the fetch of the
  next event. Safe: no effect is claimed. -/
  | noEvent
  /-- What is presented spells no event (30_encoding.md R103), or is an access that is not one byte wide
  (20_memory.md R65). Raised by the fetch of the next event. Safe: the spec has the machine take no step. -/
  | notAnEvent (why : DecodeError)
  deriving DecidableEq, Repr

/-- The outcome of one event. -/
abbrev Result := Host.Outcome State Fault Refusal

/-- The empty set of causes. -/
def CauseSet.empty : CauseSet :=
  { rlsi := false, rdi := false, cti := false, thri := false, msi := false }

/-- The state right after power-on: the values of R46, the FIFO created empty (R122), no output yet (R202), no
event presented, the default configuration (R8). -/
def State.reset : State :=
  { lcr := resetLcr, lsr := resetLsr, msr := resetMsr, mcr := resetMcr, ier := resetIer
    iir := resetIir, fcr := resetFcr, dll := resetDll, dlh := resetDlh
    ints := CauseSet.empty
    fifo := Queue.new
    irq := false
    out := []
    response := .nothing
    inputs := []
    params := defaultParams }

end Sys2Proof.Machine
end

