-- ==== Sys2Proof/Machine/Flags.lean ====
section
/-! DEFINITION. The status bits, the enable bits, DLAB and the set of pending causes (10_state.md R24, R27 to R31,
R40, R50). -/

namespace Sys2Proof.Machine

/-! ### Bits of registers -/

/-- `LCR.DLAB`, bit 7 of LCR (R24): the one mode bit that changes decoding (30_encoding.md R99). -/
def dlabOf (lcr : Byte) : Bool := lcr.getLsbD 7

/-- `IER.RDI`, bit 0 of IER (R31): enables the Character-Timeout cause. -/
def rdiEnabled (ier : Byte) : Bool := ier.getLsbD 0

/-- `IER.THRI`, bit 1 of IER (R31): enables the Transmit-Holding-Empty cause. -/
def thriEnabled (ier : Byte) : Bool := ier.getLsbD 1

/-- `LSR | mask` (00_scope.md R15). -/
def setBits (lsr mask : Byte) : Byte := lsr ||| mask

/-- `LSR & ~mask` (R15). -/
def clearBits (lsr mask : Byte) : Byte := lsr &&& ~~~mask

/-! ### The set `ints` (R40) -/

/-- `c ∈ ints`. -/
def CauseSet.mem (x : CauseSet) : Cause → Bool
  | .rlsi => x.rlsi
  | .rdi => x.rdi
  | .cti => x.cti
  | .thri => x.thri
  | .msi => x.msi

/-- `ints ∪ {c}`. -/
def CauseSet.insert (x : CauseSet) : Cause → CauseSet
  | .rlsi => { x with rlsi := true }
  | .rdi => { x with rdi := true }
  | .cti => { x with cti := true }
  | .thri => { x with thri := true }
  | .msi => { x with msi := true }

/-- `ints \ {c}`. -/
def CauseSet.erase (x : CauseSet) : Cause → CauseSet
  | .rlsi => { x with rlsi := false }
  | .rdi => { x with rdi := false }
  | .cti => { x with cti := false }
  | .thri => { x with thri := false }
  | .msi => { x with msi := false }

/-! ### The line as the outputs show it (R43) -/

/-- The level of the line after the outputs `o`, from the level `l` before them: 1 after a `Raise`, 0 after a
`Clear` (00_scope.md R16, R43). -/
def lineAfter (l : Bool) : List Output → Bool
  | [] => l
  | .tx _ :: o => lineAfter l o
  | .raise _ :: o => lineAfter true o
  | .clear _ :: o => lineAfter false o

/-- The transmitted bytes among the outputs, in order. -/
def transmitted : List Output → List Byte
  | [] => []
  | .tx b :: o => b :: transmitted o
  | .raise _ :: o => transmitted o
  | .clear _ :: o => transmitted o

end Sys2Proof.Machine
end

