-- ==== Sys2Proof/Machine/Operands.lean ====
section
/-! DEFINITION. Operand forms of the register file (30_encoding.md R97): what a write of IER keeps and what reads
of IER and IIR return. The masking of written and received values to 8 bits is `maskByte` of Decode (R96). -/

namespace Sys2Proof.Machine

/-- What a write of IER stores: `v & 0x0F` (R97, 10_state.md R31). -/
def ierStored (v : Byte) : Byte := v &&& ierMask

/-- What a read of IER returns: `IER & 0x0F` (R97, R31). -/
def ierImage (ier : Byte) : Byte := ier &&& ierMask

/-- What a read of IIR returns: `(IIR & 0x0F) | 0xC0` (R97, R33). -/
def iirImage (iir : Byte) : Byte := (iir &&& iirMask) ||| iirIdBits

end Sys2Proof.Machine
end

