-- ==== Sys2Proof/Machine/Ops.lean ====
section
/-! DEFINITION. The named operations the events share: register updates, the outputs (00_scope.md R16), the
interrupt state machine (41_interrupt_state_machine.md R140 to R144: report and dismissal, the block's side of an
interrupt, 60_exceptions.md R225, R226), the receive buffer, both resets, UnsupportedRegister (R211), and taking
the next event. -/

namespace Sys2Proof.Machine

/-! ### Named updates of the state -/

def State.setLcr (s : State) (v : Byte) : State := { s with lcr := v }
def State.setLsr (s : State) (v : Byte) : State := { s with lsr := v }
def State.setMcr (s : State) (v : Byte) : State := { s with mcr := v }
def State.setIer (s : State) (v : Byte) : State := { s with ier := v }
def State.setIir (s : State) (v : Byte) : State := { s with iir := v }
def State.setFcr (s : State) (v : Byte) : State := { s with fcr := v }
def State.setDll (s : State) (v : Byte) : State := { s with dll := v }
def State.setDlh (s : State) (v : Byte) : State := { s with dlh := v }
def State.setInts (s : State) (x : CauseSet) : State := { s with ints := x }
def State.setFifo (s : State) (q : Queue) : State := { s with fifo := q }
def State.setInputs (s : State) (r : List Request) : State := { s with inputs := r }
/-- Record what the event answers to its issuer (R17, R90; log entry 2). -/
def State.respond (s : State) (r : Response) : State := { s with response := r }

/-- DLAB as it stands (30_encoding.md R94, R99). -/
def State.dlab (s : State) : Bool := dlabOf s.lcr

/-! ### Outputs (R16) -/

/-- `IrqRaise(IRQ_LINE)`. -/
def State.irqRaise (s : State) : State :=
  { s with irq := true, out := s.out ++ [.raise s.params.irqLine] }

/-- `IrqClear(IRQ_LINE)`. -/
def State.irqClear (s : State) : State :=
  { s with irq := false, out := s.out ++ [.clear s.params.irqLine] }

/-- `TxPut(b)`. -/
def State.txPut (s : State) (b : Byte) : State :=
  { s with out := s.out ++ [.tx b] }

/-! ### The interrupt state machine (R140 to R144) -/

/-- What the block does when it reports a cause: `IIR <- code(c)`, then `IrqRaise` (R225). -/
def report (c : Cause) (s : State) : State := (s.setIir (code c)).irqRaise

/-- `SignalCTI()` (R140). -/
def signalCti (s : State) : State :=
  let s1 := s.setInts (s.ints.insert .cti)
  if rdiEnabled s1.ier = false then s1
  else if s1.iir ≠ code .rlsi ∧ s1.iir ≠ code .rdi then report .cti s1
  else s1

/-- `SignalTHRI()` (R141). -/
def signalThri (s : State) : State :=
  let s1 := s.setInts (s.ints.insert .thri)
  if thriEnabled s1.ier = false then s1
  else if s1.iir = noInt ∨ s1.iir = code .msi ∨ s1.iir = code .thri then report .thri s1
  else s1

/-- `Resolve()` (R142). -/
def resolve (s : State) : State :=
  if s.ints.mem .cti = true ∧ rdiEnabled s.ier = true then signalCti s
  else if s.ints.mem .thri = true ∧ thriEnabled s.ier = true then signalThri s
  else (s.setIir noInt).irqClear

/-- `Acknowledge(c)` (R143): the comparison takes the IIR value from before the overwrite. -/
def acknowledge (c : Cause) (s : State) : State :=
  let s1 := (s.setInts (s.ints.erase c)).setIir noInt
  if s.iir = code c then resolve s1 else s1

/-- The `JOINT` reading of "acknowledges both" (R144). -/
def acknowledgeJoint (s : State) : State :=
  let s1 := (s.setInts ((s.ints.erase .rdi).erase .cti)).setIir noInt
  if s.iir = code .rdi ∨ s.iir = code .cti then resolve s1 else s1

/-- `AcknowledgeRBR()` (R144), by `RBR_ACK_MODE`. -/
def acknowledgeRbr (s : State) : State :=
  match s.params.rbrAckMode with
  | .seqRdiCti => acknowledge .cti (acknowledge .rdi s)
  | .seqCtiRdi => acknowledge .rdi (acknowledge .cti s)
  | .joint => acknowledgeJoint s

/-! ### The receive buffer (42_register_reads.md R160, 44_external_events.md R200) -/

/-- `LSR.DR <- 1` (R15). -/
def setDataReady (s : State) : State := s.setLsr (setBits s.lsr lsrDr)

/-- `LSR.DR <- 0` (R15). -/
def clearDataReady (s : State) : State := s.setLsr (clearBits s.lsr lsrDr)

/-- The byte a read of the receive buffer returns: the oldest byte, or `RBR_IDLE` when there is none (R160). -/
def receiveByte (s : State) : Byte :=
  if s.fifo.isEmpty then s.params.rbrIdle else s.fifo.popFront.1.getD s.params.rbrIdle

/-- Remove the oldest byte, if there is one (R160). -/
def dropReceived (s : State) : State :=
  if s.fifo.isEmpty then s else s.setFifo s.fifo.popFront.2

/-- After the pop: bytes left set DR and signal CTI, none left clears DR (R160). -/
def announceRemaining (s : State) : State :=
  if s.fifo.isEmpty then clearDataReady s else signalCti (setDataReady s)

/-! ### Reset (R201) -/

/-- The registers and `ints` to their reset values; the FIFO, the line and the outputs stay (R201, R253). -/
def State.resetRegisters (s : State) : State :=
  { s with lcr := resetLcr, lsr := resetLsr, msr := resetMsr, mcr := resetMcr, ier := resetIer
           iir := resetIir, fcr := resetFcr, dll := resetDll, dlh := resetDlh
           ints := CauseSet.empty }

/-! ### Ends of an event -/

/-- The event completes and answers `r`. -/
def answer (r : Response) (s : State) : Result := .next (s.respond r)

/-- `raise UnsupportedRegister(dir, a)` (R17, R211): a fault, or under `ERROR_RETURN` an error answer with every
state component as it was. -/
def unsupportedRegister (dir : Dir) (a : Nat) (s : State) : Result :=
  match s.params.unsupportedMode with
  | .fault => .fault (.unsupportedRegister dir a)
  | .errorReturn => answer (.error dir a) s

/-! ### Where the registers sit in the system's address space (20_memory.md R62, R8; log entry 25) -/

/-- The system address of register address `a`: `UART_BASE` plus it (stride 1). -/
def systemAddr (p : Params) (a : Nat) : Nat := p.uartBase + a

/-- The register address of a system address: it minus `UART_BASE`; a system address below the base is none of the
block's. -/
def registerAddr (p : Params) (sys : Nat) : Option Nat :=
  if p.uartBase ≤ sys then some (sys - p.uartBase) else none

/-- The request the dispatcher presents for a system read of the block. -/
def busRead (p : Params) (width sys : Nat) : Option Request :=
  (registerAddr p sys).map (fun a => .read width a)

/-- The request the dispatcher presents for a system write of the block. -/
def busWrite (p : Params) (width sys value : Nat) : Option Request :=
  (registerAddr p sys).map (fun a => .write width a value)

/-! ### Taking the next event (R9, R73, R94) -/

/-- The next request, taken from the agents' total order and decoded with DLAB as it stands (R94); the machine
takes no step where there is none or where it is no event (R103, R65). -/
def nextEvent (s : State) : Except Refusal (Instr × State) :=
  match s.inputs with
  | [] => .error .noEvent
  | r :: rest =>
    match decodeRequest s.dlab r with
    | .error why => .error (.notAnEvent why)
    | .ok i => .ok (i, s.setInputs rest)

/-- LCR with bit 7 set to `dlab`, the other bits as they are (R24). -/
def withDlab (lcr : Byte) (dlab : Bool) : Byte :=
  (lcr &&& 0x7F#8) ||| (if dlab then 0x80#8 else 0x00#8)

/-- `s` with the event of the decode key `w` presented next: DLAB is bit 16 of the key (R94), the event word is
put before what is already presented. A `w` with a bit above the key is no key, and nothing is presented. -/
def presentKey (s : State) (w : Nat) : State :=
  if w < 2 ^ 17 then
    (s.setLcr (withDlab s.lcr (w.testBit 16))).setInputs (.word (BitVec.ofNat 16 w) :: s.inputs)
  else s.setInputs []

end Sys2Proof.Machine
end

