-- ==== Sys2Proof/Machine/External.lean ====
section
/-! DEFINITION. The meanings of the events from outside the bus: 44_external_events.md R200 to R203. -/

namespace Sys2Proof.Machine

/-- `RX` (R200): append the byte, set DR, signal CTI. -/
def execRx (b : Byte) (s : State) : Result :=
  answer .nothing (signalCti (setDataReady (s.setFifo (s.fifo.pushBack b))))

/-- `RST` (R201): no output, and the FIFO and the line stay. -/
def execRst (s : State) : Result := answer .nothing s.resetRegisters

/-- `QRST` (R203): the queue returns to its created state and nothing else changes. -/
def execQrst (s : State) : Result := answer .nothing (s.setFifo s.fifo.reset)

end Sys2Proof.Machine
end

