-- ==== Sys2Proof/Machine/Reads.lean ====
section
/-! DEFINITION. The meanings of the register reads: 42_register_reads.md R160 to R169. -/

namespace Sys2Proof.Machine

/-- `RD.RBR` (R160): acknowledge, pop, announce, return. The byte is that of the FIFO, which the acknowledgement
does not touch. -/
def execRdRbr (s : State) : Result :=
  let s1 := acknowledgeRbr s
  answer (.byte (receiveByte s1)) (announceRemaining (dropReceived s1))

/-- `RD.DLL` (R161). -/
def execRdDll (s : State) : Result := answer (.byte s.dll) s

/-- `RD.IER` (R162). -/
def execRdIer (s : State) : Result := answer (.byte (ierImage s.ier)) s

/-- `RD.DLH` (R163). -/
def execRdDlh (s : State) : Result := answer (.byte s.dlh) s

/-- `RD.IIR` (R164): the byte is formed from IIR before the side effect (log entry 13). -/
def execRdIir (s : State) : Result :=
  answer (.byte (iirImage s.iir)) (if s.iir = code .thri then acknowledge .thri s else s)

/-- `RD.LCR` (R165). -/
def execRdLcr (s : State) : Result := answer (.byte s.lcr) s

/-- `RD.A4` (R166). -/
def execRdA4 (s : State) : Result := unsupportedRegister .read 4 s

/-- `RD.LSR` (R167). -/
def execRdLsr (s : State) : Result := answer (.byte s.lsr) s

/-- `RD.MSR` (R168). -/
def execRdMsr (s : State) : Result := answer (.byte s.msr) s

/-- `RD.A7` (R169): address 7 and every address above it. -/
def execRdA7 (a : Nat) (s : State) : Result := unsupportedRegister .read a s

end Sys2Proof.Machine
end

