-- ==== Sys2Proof/Machine/Writes.lean ====
section
/-! DEFINITION. The meanings of the register writes: 43_register_writes.md R180 to R190. -/

namespace Sys2Proof.Machine

/-- `WR.THR` (R180): THRE falls, the byte goes out, THRE rises, THRI is signalled, all inside the event. -/
def execWrThr (v : Byte) (s : State) : Result :=
  let s1 := s.setLsr (clearBits s.lsr lsrThre)
  let s2 := s1.txPut v
  let s3 := s2.setLsr (setBits s2.lsr lsrThre)
  answer .nothing (signalThri s3)

/-- `WR.DLL` (R181). -/
def execWrDll (v : Byte) (s : State) : Result := answer .nothing (s.setDll v)

/-- `WR.IER` (R182). -/
def execWrIer (v : Byte) (s : State) : Result := answer .nothing (resolve (s.setIer (ierStored v)))

/-- `WR.DLH` (R183): all 8 bits are stored, no re-arbitration. -/
def execWrDlh (v : Byte) (s : State) : Result := answer .nothing (s.setDlh v)

/-- `WR.FCR` (R184): the value is stored and nothing else happens; bit 1 does not clear the FIFO. -/
def execWrFcr (v : Byte) (s : State) : Result := answer .nothing (s.setFcr v)

/-- `WR.LCR` (R185). -/
def execWrLcr (v : Byte) (s : State) : Result := answer .nothing (s.setLcr v)

/-- `WR.MCR` (R186). -/
def execWrMcr (v : Byte) (s : State) : Result := answer .nothing (s.setMcr v)

/-- `WR.A5` (R188). The written value has no effect. -/
def execWrA5 (_v : Byte) (s : State) : Result := unsupportedRegister .write 5 s

/-- `WR.A6` (R189). The written value has no effect. -/
def execWrA6 (_v : Byte) (s : State) : Result := unsupportedRegister .write 6 s

/-- `WR.A7` (R190): address 7 and every address above it. The written value has no effect. -/
def execWrA7 (a : Nat) (_v : Byte) (s : State) : Result := unsupportedRegister .write a s

end Sys2Proof.Machine
end

