-- ==== Sys2Proof/Machine/Dispatch.lean ====
section
/-! DEFINITION. The meaning of each event of the opcode map (30_encoding.md R100), one arm per constructor. -/

namespace Sys2Proof.Machine

def exec (i : Instr) (s : State) : Host.Outcome State Fault Refusal :=
  match i with
  | .rdRbr => Sys2Proof.Machine.execRdRbr s
  | .rdDll => Sys2Proof.Machine.execRdDll s
  | .rdIer => Sys2Proof.Machine.execRdIer s
  | .rdDlh => Sys2Proof.Machine.execRdDlh s
  | .rdIir => Sys2Proof.Machine.execRdIir s
  | .rdLcr => Sys2Proof.Machine.execRdLcr s
  | .rdA4 => Sys2Proof.Machine.execRdA4 s
  | .rdLsr => Sys2Proof.Machine.execRdLsr s
  | .rdMsr => Sys2Proof.Machine.execRdMsr s
  | .rdA7 a => Sys2Proof.Machine.execRdA7 a s
  | .wrThr v => Sys2Proof.Machine.execWrThr v s
  | .wrDll v => Sys2Proof.Machine.execWrDll v s
  | .wrIer v => Sys2Proof.Machine.execWrIer v s
  | .wrDlh v => Sys2Proof.Machine.execWrDlh v s
  | .wrFcr v => Sys2Proof.Machine.execWrFcr v s
  | .wrLcr v => Sys2Proof.Machine.execWrLcr v s
  | .wrMcr v => Sys2Proof.Machine.execWrMcr v s
  | .wrA5 v => Sys2Proof.Machine.execWrA5 v s
  | .wrA6 v => Sys2Proof.Machine.execWrA6 v s
  | .wrA7 a v => Sys2Proof.Machine.execWrA7 a v s
  | .rx b => Sys2Proof.Machine.execRx b s
  | .rst => Sys2Proof.Machine.execRst s
  | .qrst => Sys2Proof.Machine.execQrst s

end Sys2Proof.Machine
end

