-- ==== Sys2Proof/Machine/Step.lean ====
section
/-! DEFINITION. One step: the next event of the agents' total order, taken, decoded and run to completion
(20_memory.md R69, R73). -/

namespace Sys2Proof.Machine

/-- One step of the block. -/
def step (s : State) : Host.Outcome State Fault Refusal :=
  match nextEvent s with
  | .error r => .refused r
  | .ok (i, s') => exec i s'

/-- `s` with the instruction whose table bits are `w` presented as the next event: bit 16 becomes DLAB, bits 15:0
are the event word (30_encoding.md R94; log entry 1). -/
def State.withFetchWord (s : State) (_nbits w : Nat) : State := presentKey s w

end Sys2Proof.Machine
end

