-- ==== Sys2Proof/Machine/Ports.lean ====
section
/-! DEFINITION. The signal-level view of one step (00_scope.md R13): the spec's illustrative port list, made
from the request and the states on both sides of the step. No rule rests on it (D21; log entry 20). -/

namespace Sys2Proof.Machine

/-- The input ports of R13: at most one strobe is active per step. -/
structure PortsIn where
  addr : BitVec 3
  wdata : Byte
  rd : Bool
  wr : Bool
  rx : Bool
  rxdata : Byte
  rst : Bool
  deriving DecidableEq, Repr

/-- The output ports of R13. `rdata` and `txdata` carry a value only in a step that drives them. -/
structure PortsOut where
  rdata : Option Byte
  irq : Bool
  txValid : Bool
  txdata : Option Byte
  fault : Bool
  deriving DecidableEq, Repr

/-- The request the strobes present. No strobe, or more than one, presents none (R13). -/
def PortsIn.request (p : PortsIn) : Option Request :=
  match p.rd, p.wr, p.rx, p.rst with
  | true, false, false, false => some (.read 1 p.addr.toNat)
  | false, true, false, false => some (.write 1 p.addr.toNat p.wdata.toNat)
  | false, false, true, false => some (.receive p.rxdata.toNat)
  | false, false, false, true => some .reset
  | _, _, _, _ => none

/-- The byte a response puts on `rdata`. -/
def Response.rdata : Response → Option Byte
  | .byte b => some b
  | .nothing => none
  | .error _ _ => none

/-- A response that pulses `fault` (UnsupportedRegister under `ERROR_RETURN`). -/
def Response.isError : Response → Bool
  | .error _ _ => true
  | .nothing => false
  | .byte _ => false

/-- The output ports of a step that no strobe starts: nothing is driven, no pulse, the line at its level. -/
def quietPorts (level : Bool) : PortsOut :=
  { rdata := none, irq := level, txValid := false, txdata := none, fault := false }

/-- The output ports of the event that took `s` to `t`. -/
def eventPorts (s t : State) : PortsOut :=
  let sent := transmitted (t.out.drop s.out.length)
  { rdata := t.response.rdata, irq := t.irq, txValid := !sent.isEmpty, txdata := sent.head?
    fault := t.response.isError }

/-- The output ports of a step from `s` under the inputs `p`, with outcome `o`. `fault`, `tx_valid` and `rdata` show
the event of this step only: a step without an event shows none of an earlier one's. A step that stops leaves the
line as it was. -/
def portsOut (p : PortsIn) (s : State) (o : Result) : PortsOut :=
  match p.request, o with
  | some _, .next t => eventPorts s t
  | some _, .fault _ => { quietPorts s.irq with fault := true }
  | some _, .refused _ => quietPorts s.irq
  | none, _ => quietPorts s.irq

/-- One step of the block driven through its ports: the request of the strobes is taken now, before any request that
waits. Without a request nothing changes. -/
def portStep (p : PortsIn) (s : State) : Result :=
  match p.request with
  | some r => step (s.setInputs (r :: s.inputs))
  | none => .next s

end Sys2Proof.Machine
end

