-- ==== Sys2Proof/Safety.lean ====
section
/-! DEFINITION. The terms claims are made in: the invariants of 10_state.md R47, which accesses are supported
(30_encoding.md R101), what an event takes from and gives to the FIFO (20_memory.md R81), and a safe run. -/

namespace Sys2Proof.Machine

/-- The invariant of R47, items 1 to 5 and 7, with the FIFO's storage well formed (R121). -/
structure State.Inv (s : State) : Prop where
  /-- Item 1: `IER & 0xF0 = 0`. -/
  ierHigh : s.ier &&& ~~~ierMask = 0#8
  /-- Item 2: IIR is NO_INT or the code of THRI or of CTI. -/
  iirCode : s.iir = noInt ∨ s.iir = code .thri ∨ s.iir = code .cti
  /-- Item 3: `ints ⊆ {CTI, THRI}`. -/
  intsOnly : s.ints.rlsi = false ∧ s.ints.rdi = false ∧ s.ints.msi = false
  /-- Item 4, LSR: THRE and TEMT are set and no bit but DR varies. -/
  lsrBits : s.lsr = lsrThre ||| lsrTemt ∨ s.lsr = lsrThre ||| lsrTemt ||| lsrDr
  /-- Item 4, MSR: its reset value. -/
  msrReset : s.msr = resetMsr
  /-- Item 5: a reported CTI is pending. -/
  ctiPending : s.iir = code .cti → s.ints.cti = true
  /-- Item 5: a reported THRI is pending. -/
  thriPending : s.iir = code .thri → s.ints.thri = true
  /-- Item 7: a report holds the line up. -/
  lineUp : s.iir ≠ noInt → s.irq = true
  /-- The storage of the FIFO is well formed (R121). -/
  fifoWf : s.fifo.Wf

/-- Item 6 of R47, which `RST` and `QRST` break: DR is set exactly when bytes are queued, and CTI is pending
exactly when bytes are queued. -/
def State.DrInv (s : State) : Prop :=
  (s.lsr &&& lsrDr = lsrDr ↔ s.fifo.len ≠ 0) ∧ (s.ints.cti = true ↔ s.fifo.len ≠ 0)

/-- The outputs so far account for the line: its level is what the last `Raise` or `Clear` left, from the level
0 of power-on (R43, R219), and each of them names this port's line (R10). -/
def State.OutInv (s : State) : Prop :=
  s.irq = lineAfter false s.out ∧
  ∀ o ∈ s.out, ∀ l, o = .raise l ∨ o = .clear l → l = s.params.irqLine

/-- A read of `a` is supported (R101). -/
def readSupported (a : Nat) : Bool := a == 0 || a == 1 || a == 2 || a == 3 || a == 5 || a == 6

/-- A write of `a` is supported (R101). -/
def writeSupported (a : Nat) : Bool := a == 0 || a == 1 || a == 2 || a == 3 || a == 4

/-- The access an event makes to an address outside its direction's set, if it makes one (R211). -/
def unsupportedAccess : Instr → Option (Dir × Nat)
  | .rdA4 => some (.read, 4)
  | .rdA7 a => some (.read, a)
  | .wrA5 _ => some (.write, 5)
  | .wrA6 _ => some (.write, 6)
  | .wrA7 a _ => some (.write, a)
  | .rdRbr | .rdDll | .rdIer | .rdDlh | .rdIir | .rdLcr | .rdLsr | .rdMsr => none
  | .wrThr _ | .wrDll _ | .wrIer _ | .wrDlh _ | .wrFcr _ | .wrLcr _ | .wrMcr _ => none
  | .rx _ | .rst | .qrst => none

/-- The bytes an event brings into the FIFO (R81). -/
def bytesReceived : Instr → List Byte
  | .rx b => [b]
  | _ => []

/-- The bytes an event hands to the guest out of the FIFO (R81): the oldest, for a read of the receive buffer. -/
def bytesTaken (i : Instr) (s : State) : List Byte :=
  match i with
  | .rdRbr => s.fifo.seq.take 1
  | _ => []

/-- The byte an event gives to the byte sink (R180). -/
def bytesSent : Instr → List Byte
  | .wrThr v => [v]
  | _ => []

/-- The events that write MCR (R35). -/
def writesMcr : Instr → Bool
  | .wrMcr _ | .rst => true
  | _ => false

/-- The events that write FCR (R36). -/
def writesFcr : Instr → Bool
  | .wrFcr _ | .rst => true
  | _ => false

/-- The events that write LCR (R23). -/
def writesLcr : Instr → Bool
  | .wrLcr _ | .rst => true
  | _ => false

/-- The events that write DLL (R48). -/
def writesDll : Instr → Bool
  | .wrDll _ | .rst => true
  | _ => false

/-- The events that write DLH (R48). -/
def writesDlh : Instr → Bool
  | .wrDlh _ | .rst => true
  | _ => false

/-- `k` steps from `s` meet no UnsupportedRegister: neither its fault nor, under `ERROR_RETURN`, its error answer,
which is something a correct guest program never causes (60_exceptions.md R211). Running out of events is no fault
(70_reset_and_hazards.md R277). -/
def safeRun : Nat → State → Prop
  | 0, _ => True
  | k + 1, s =>
    match step s with
    | .next t => t.response.isError = false ∧ safeRun k t
    | .fault _ => False
    | .refused _ => True

/-- `k` steps from `s` end in no fault. An error answer does not end a run (R211), so this says less than `safeRun`. -/
def faultFreeRun : Nat → State → Prop
  | 0, _ => True
  | k + 1, s =>
    match step s with
    | .next t => faultFreeRun k t
    | .fault _ => False
    | .refused _ => True

end Sys2Proof.Machine
end

