-- ==== Sys2Proof/Certificates/Slice0/Obligations.lean ====
section
/-! DEFINITION. The statements about the model: what the decoder reads, what each event does and leaves alone, when
an access faults, the invariants every step keeps, and the queue's agreement with a double-ended queue. Frames are
written as record updates: `t = { s with … }` says that every field not named is unchanged. `response`, `inputs`
and `params` are the model's own fields (log entries 1 to 3). -/

open Sys2Proof Sys2Proof.Machine

/-! ### Reset -/

/-- What power-on leaves (10_state.md R46, 44_external_events.md R202): the spec's own decisions D5 and D15 (log
entries 8, 9), the FIFO created empty with capacity 16, and the default modes (log entries 4, 5). -/
def Obligations.ResetLeavesPowerOnState : Prop :=
  State.reset.lcr = 0x03#8 ∧ State.reset.lsr = 0x60#8 ∧ State.reset.msr = 0x00#8 ∧ State.reset.mcr = 0x00#8 ∧
  State.reset.ier = 0x00#8 ∧ State.reset.iir = 0x01#8 ∧ State.reset.fcr = 0x00#8 ∧
  State.reset.dll = 0x00#8 ∧ State.reset.dlh = 0x00#8 ∧
  (∀ c, State.reset.ints.mem c = false) ∧
  State.reset.fifo.seq = [] ∧ State.reset.fifo.capacity = 16 ∧
  State.reset.irq = false ∧ State.reset.out = [] ∧ State.reset.inputs = [] ∧
  State.reset.params.rbrAckMode = .seqRdiCti ∧ State.reset.params.unsupportedMode = .fault

/-- The three invariants hold right after power-on (10_state.md R47). -/
def Obligations.InvariantsHoldAtReset : Prop :=
  State.reset.Inv ∧ State.reset.DrInv ∧ State.reset.OutInv

/-! ### Steps and decoding -/

/-- A step runs the event its next request decodes to, under DLAB as it stands at the start, with that request
taken (20_memory.md R73, 30_encoding.md R94; the queue of requests is log entry 1). -/
def Obligations.StepRunsTheDecodedEvent : Prop :=
  ∀ (s : State) (r : Request) (rest : List Request) (i : Instr),
    s.inputs = r :: rest → decodeRequest (s.lcr.getLsbD 7) r = .ok i →
    step s = exec i { s with inputs := rest }

/-- The machine takes no step where no event is presented (00_scope.md R9), where a word spells no event (D13) and
where an access is not one byte wide (D23); it does not split a wide access. -/
def Obligations.StepRefusesWhatIsNoEvent : Prop :=
  (∀ s : State, s.inputs = [] → step s = .refused .noEvent) ∧
  (∀ (s : State) (r : Request) (rest : List Request) (why : DecodeError),
    s.inputs = r :: rest → decodeRequest (s.lcr.getLsbD 7) r = .error why → step s = .refused (.notAnEvent why)) ∧
  (∀ (s : State) (rest : List Request) (width a value : Nat), width ≠ 1 →
    (s.inputs = .read width a :: rest ∨ s.inputs = .write width a value :: rest) →
    step s = .refused (.notAnEvent (.badWidth width)))

/-- The step after `withFetchWord` runs the instruction of the table word, under the DLAB that is bit 16 of the word,
with the other bits of LCR and the requests as they were (30_encoding.md R94; the host's interface, log entry 1). -/
def Obligations.FetchWordRunsTheTableInstruction : Prop :=
  ∀ (s : State) (nbits w : Nat) (i : Instr), decodeTableWord nbits w = some i →
    step (s.withFetchWord nbits w) =
      exec i { s with lcr := (s.lcr &&& 0x7F#8) ||| (if w.testBit 16 then 0x80#8 else 0x00#8) }

/-- A few words of the opcode map, written out from 30_encoding.md R91 to R100, decode to their rows. -/
def Obligations.SampleWordsDecodeToTheirRows : Prop :=
  decodeWord false 0b0000000000000000#16 = .ok .rdRbr ∧
  decodeWord true 0b0000000000000000#16 = .ok .rdDll ∧
  decodeWord false 0b0000001000000000#16 = .ok .rdIir ∧
  decodeWord true 0b0000010111111111#16 = .ok .rdLsr ∧
  decodeWord false 0b0001000001000010#16 = .ok (.wrThr 0x42#8) ∧
  decodeWord true 0b0001000111111111#16 = .ok (.wrDlh 0xFF#8) ∧
  decodeWord false 0b0001001110000011#16 = .ok (.wrLcr 0x83#8) ∧
  decodeWord true 0b0010000001000001#16 = .ok (.rx 0x41#8) ∧
  decodeWord false 0b0011000000000000#16 = .ok .rst ∧
  decodeWord false 0b0100000000000000#16 = .ok .qrst

/-- Decoding inverts encoding for every event with every operand, under every DLAB its row admits, as a word, as a
key and as a word of the opcode table. -/
def Obligations.DecodingInvertsEncoding : Prop :=
  ∀ (i : Instr) (dlab : Bool), i.wf = true → i.hasWord = true → i.admits dlab = true →
    decodeWord dlab (encode i) = .ok i ∧ decodeKey (encodeKey dlab i) = .ok i ∧
    decodeTableWord 24 (encodeKey dlab i).toNat = some i

/-- Whatever a word decodes to is well formed, admitted by DLAB, and the word is its canonical word, but for the
ignored `D` field of a read (30_encoding.md R91, R103; D13). -/
def Obligations.EachWordIsItsEventsWord : Prop :=
  ∀ (dlab : Bool) (e : EventWord) (i : Instr), decodeWord dlab e = .ok i →
    i.wf = true ∧ i.hasWord = true ∧ i.admits dlab = true ∧
    (if kindField e = 0x0#4 then encode i = mkWord 0x0#4 (addrField e) 0x00#8 else encode i = e)

/-- A word spells no event exactly when its KIND is 0x5 to 0xF, or Z is 1, or A is not 0 with KIND 0x2, 0x3 or 0x4,
or D is not 0 with KIND 0x3 or 0x4 (30_encoding.md R103; D13). -/
def Obligations.WordsThatSpellNoEvent : Prop :=
  ∀ (dlab : Bool) (e : EventWord),
    (∃ why, decodeWord dlab e = .error why) ↔
      (5 ≤ e.toNat / 4096 ∨ e.getLsbD 11 = true ∨
        (e.toNat / 256 % 8 ≠ 0 ∧ (e.toNat / 4096 = 2 ∨ e.toNat / 4096 = 3 ∨ e.toNat / 4096 = 4)) ∨
        (e.toNat % 256 ≠ 0 ∧ (e.toNat / 4096 = 3 ∨ e.toNat / 4096 = 4)))

/-- The 23 rows of the opcode map are pairwise disjoint, and a key selects a row exactly when it decodes, the row
being that of the decoded event (30_encoding.md R94, R100, which the spec derives; D13). -/
def Obligations.OpcodeMapSelectsTheDecodedRow : Prop :=
  opcodeRows.length = 23 ∧
  ∀ k : Key,
    (∀ r ∈ opcodeRows, ∀ r' ∈ opcodeRows, r.selects k = true → r'.selects k = true → r = r') ∧
    (∀ r ∈ opcodeRows, r.selects k = true → ∃ i, decodeKey k = .ok i ∧ i.mnemonic = r.mnemonic) ∧
    (∀ i, decodeKey k = .ok i → ∃ r ∈ opcodeRows, r.selects k = true ∧ r.mnemonic = i.mnemonic)

/-- The register map: the row that each address selects in each direction under each DLAB, and what the unsupported
cells raise (20_memory.md R61). The same for event words: `CallsAndWordsAskForTheSameEvents`. -/
def Obligations.RegisterMapSelectsTheRows : Prop :=
  (∀ dlab : Bool,
    decodeRequest dlab (.read 1 0) = .ok (if dlab then .rdDll else .rdRbr) ∧
    decodeRequest dlab (.read 1 1) = .ok (if dlab then .rdDlh else .rdIer) ∧
    decodeRequest dlab (.read 1 2) = .ok .rdIir ∧
    decodeRequest dlab (.read 1 3) = .ok .rdLcr ∧
    decodeRequest dlab (.read 1 4) = .ok .rdA4 ∧
    decodeRequest dlab (.read 1 5) = .ok .rdLsr ∧
    decodeRequest dlab (.read 1 6) = .ok .rdMsr ∧
    ∀ a, 7 ≤ a → decodeRequest dlab (.read 1 a) = .ok (.rdA7 a)) ∧
  (∀ (dlab : Bool) (v : Byte),
    decodeRequest dlab (.write 1 0 v.toNat) = .ok (if dlab then .wrDll v else .wrThr v) ∧
    decodeRequest dlab (.write 1 1 v.toNat) = .ok (if dlab then .wrDlh v else .wrIer v) ∧
    decodeRequest dlab (.write 1 2 v.toNat) = .ok (.wrFcr v) ∧
    decodeRequest dlab (.write 1 3 v.toNat) = .ok (.wrLcr v) ∧
    decodeRequest dlab (.write 1 4 v.toNat) = .ok (.wrMcr v) ∧
    decodeRequest dlab (.write 1 5 v.toNat) = .ok (.wrA5 v) ∧
    decodeRequest dlab (.write 1 6 v.toNat) = .ok (.wrA6 v) ∧
    ∀ a, 7 ≤ a → decodeRequest dlab (.write 1 a v.toNat) = .ok (.wrA7 a v)) ∧
  (∀ (s : State) (v : Byte) (a : Nat),
    exec .rdA4 s = unsupportedRegister .read 4 s ∧ exec (.rdA7 a) s = unsupportedRegister .read a s ∧
    exec (.wrA5 v) s = unsupportedRegister .write 5 s ∧ exec (.wrA6 v) s = unsupportedRegister .write 6 s ∧
    exec (.wrA7 a v) s = unsupportedRegister .write a s)

/-- The value every write uses is `value & 0xFF`, and an 8-bit value is used as it is; a write that faults is masked
too, where the value has no effect (30_encoding.md R96). -/
def Obligations.WrittenValuesAreMaskedToEightBits : Prop :=
  (∀ (dlab : Bool) (a value : Nat),
    decodeRequest dlab (.write 1 a value) = decodeRequest dlab (.write 1 a (value &&& 0xFF)) ∧
    decodeRequest dlab (.write 1 a value) = .ok (decodeWrite dlab a (BitVec.ofNat 8 value))) ∧
  (∀ (dlab : Bool) (a : BitVec 3) (v : Byte),
    decodeWord dlab (mkWord 0x1#4 a v) = .ok (decodeWrite dlab a.toNat v)) ∧
  (∀ (a : Nat) (v w : Byte) (s : State), exec (.wrA5 v) s = exec (.wrA5 w) s ∧ exec (.wrA6 v) s = exec (.wrA6 w) s ∧
    exec (.wrA7 a v) s = exec (.wrA7 a w) s)

/-- The calls of R12 and the event words of R92 ask for the same events: `RD a` is `0x0a00`, `WR a, v` is
`0x1a00 | v`, `RX b` is `0x2000 | b`, `RST` is `0x3000`, `QRST` is `0x4000` (D13, log entry 15). A received integer of
any size is masked to 8 bits (D16, log entry 16). -/
def Obligations.CallsAndWordsAskForTheSameEvents : Prop :=
  (∀ (dlab : Bool) (a : Nat), a < 8 →
    decodeRequest dlab (.read 1 a) = decodeRequest dlab (.word (BitVec.ofNat 16 (0x100 * a)))) ∧
  (∀ (dlab : Bool) (a v : Nat), a < 8 → v < 256 →
    decodeRequest dlab (.write 1 a v) = decodeRequest dlab (.word (BitVec.ofNat 16 (0x1000 + 0x100 * a + v)))) ∧
  (∀ (dlab : Bool) (b : Nat),
    decodeRequest dlab (.receive b) = .ok (.rx (BitVec.ofNat 8 b)) ∧
    decodeRequest dlab (.receive b) = decodeRequest dlab (.word (BitVec.ofNat 16 (0x2000 + b % 256)))) ∧
  (∀ dlab : Bool, decodeRequest dlab .reset = decodeRequest dlab (.word 0x3000#16) ∧
    decodeRequest dlab .queueReset = decodeRequest dlab (.word 0x4000#16))

/-- The receive source's requests are exactly the received bytes, the host's are exactly the two resets, and every
other event is the bus master's (00_scope.md R9, 60_exceptions.md R230; D25). -/
def Obligations.AgentsIssueOnlyTheirOwnEvents : Prop :=
  ∀ (dlab : Bool) (r : Request) (i : Instr), decodeRequest dlab r = .ok i →
    (r.agent = some .receiveSource ↔ ∃ b, i = .rx b) ∧
    (r.agent = some .host ↔ i = .rst ∨ i = .qrst) ∧
    (r.agent = some .busMaster ↔ (∀ b, i ≠ .rx b) ∧ i ≠ .rst ∧ i ≠ .qrst)

/-! ### Register reads -/

/-- RD.DLL, RD.IER, RD.DLH and RD.LCR: their words, the byte each answers, and nothing else changes
(42_register_reads.md R161, R162, R163, R165). RD.LSR and RD.MSR likewise (R167, R168). -/
def Obligations.StoredRegisterReadsChangeNothing : Prop :=
  (∀ d : Byte,
    decodeWord true (0x00#8 ++ d) = .ok .rdDll ∧ decodeWord false (0x01#8 ++ d) = .ok .rdIer ∧
    decodeWord true (0x01#8 ++ d) = .ok .rdDlh ∧
    ∀ dlab : Bool, decodeWord dlab (0x03#8 ++ d) = .ok .rdLcr ∧ decodeWord dlab (0x05#8 ++ d) = .ok .rdLsr ∧
      decodeWord dlab (0x06#8 ++ d) = .ok .rdMsr) ∧
  (∀ s : State,
    exec .rdDll s = .next { s with response := .byte s.dll } ∧
    exec .rdIer s = .next { s with response := .byte (s.ier &&& 0x0F#8) } ∧
    exec .rdDlh s = .next { s with response := .byte s.dlh } ∧
    exec .rdLcr s = .next { s with response := .byte s.lcr } ∧
    exec .rdLsr s = .next { s with response := .byte s.lsr } ∧
    exec .rdMsr s = .next { s with response := .byte s.msr })

/-- RD.IIR (42_register_reads.md, RD.IIR): the byte is formed from IIR before the side effect (the spec's decision
D9, log entry 13); only a reported THRI is acknowledged, and then a pending enabled CTI is reported or the line is
cleared. Registers, FIFO and every other cause are unchanged. -/
def Obligations.RdIirAnswersThenAcknowledgesThri : Prop :=
  ∀ s : State, ∃ t : State, exec .rdIir s = .next t ∧
    t.response = .byte ((s.iir &&& 0x0F#8) ||| 0xC0#8) ∧
    t = { s with ints := t.ints, iir := t.iir, irq := t.irq, out := t.out, response := t.response } ∧
    (s.iir ≠ code .thri → t = { s with response := t.response }) ∧
    (s.iir = code .thri →
      t.ints = { s.ints with thri := false } ∧
      (if s.ints.cti = true ∧ s.ier.getLsbD 0 = true then
        t.iir = code .cti ∧ t.irq = true ∧ t.out = s.out ++ [.raise s.params.irqLine]
      else t.iir = noInt ∧ t.irq = false ∧ t.out = s.out ++ [.clear s.params.irqLine]))

/-- RD.RBR (42_register_reads.md, RD.RBR), for every `RBR_ACK_MODE` and idle byte (log entries 3, 4): the oldest
byte or the idle byte is answered, the rest stays queued, DR and CTI tell whether bytes remain (D10, log entry 12),
and what the acknowledgement leaves of IIR and the line stands unless remaining bytes report CTI again. -/
def Obligations.RdRbrPopsTheOldestByte : Prop :=
  ∀ s : State, s.fifo.Wf → ∃ t : State, exec .rdRbr s = .next t ∧
    t.response = .byte (match s.fifo.seq with | [] => s.params.rbrIdle | b :: _ => b) ∧
    t.fifo.Wf ∧ t.fifo.seq = s.fifo.seq.tail ∧
    t.lsr = (if 1 < s.fifo.seq.length then s.lsr ||| lsrDr else s.lsr &&& ~~~lsrDr) ∧
    t.ints = { s.ints with rdi := false, cti := decide (1 < s.fifo.seq.length) } ∧
    (if 1 < s.fifo.seq.length ∧ s.ier.getLsbD 0 = true then
      t.iir = code .cti ∧ t.irq = true ∧
        t.out = (acknowledgeRbr s).out ++ [.raise s.params.irqLine]
    else t.iir = (acknowledgeRbr s).iir ∧ t.irq = (acknowledgeRbr s).irq ∧ t.out = (acknowledgeRbr s).out) ∧
    t = { s with
      lsr := t.lsr, fifo := t.fifo, ints := t.ints, iir := t.iir, irq := t.irq, out := t.out
      response := t.response }

/-- What "acknowledges both" leaves in each `RBR_ACK_MODE`, from each IIR of a reachable state: the table of
41_interrupt_state_machine.md, AcknowledgeRBR (the spec's decision D8, log entry 4). -/
def Obligations.AcknowledgeRbrByMode : Prop :=
  (∀ s : State, (s.iir = noInt ∨ s.iir = code .thri) →
    acknowledgeRbr s = { s with ints := { s.ints with rdi := false, cti := false }, iir := noInt }) ∧
  (∀ s : State, s.iir = code .cti → s.params.rbrAckMode = .seqRdiCti →
    acknowledgeRbr s = { s with ints := { s.ints with rdi := false, cti := false }, iir := noInt }) ∧
  (∀ s : State, s.iir = code .cti → s.params.rbrAckMode ≠ .seqRdiCti →
    acknowledgeRbr s =
      if s.ints.thri = true ∧ s.ier.getLsbD 1 = true then
        { s with
          ints := { s.ints with rdi := false, cti := false }
          iir := if s.params.rbrAckMode = .joint then code .thri else noInt
          irq := true, out := s.out ++ [.raise s.params.irqLine] }
      else
        { s with
          ints := { s.ints with rdi := false, cti := false }, iir := noInt
          irq := false, out := s.out ++ [.clear s.params.irqLine] })

/-- The three readings of "acknowledges both" agree on the byte, the FIFO, LSR and the pending causes; they differ
only in IIR, the line and the outputs, and only when CTI was reported (95_test_vectors.md, V23 to V25). -/
def Obligations.AckModesAgreeOnWhatTheGuestReads : Prop :=
  ∀ (s t t' : State) (m m' : AckMode), s.Inv →
    exec .rdRbr { s with params := { s.params with rbrAckMode := m } } = .next t →
    exec .rdRbr { s with params := { s.params with rbrAckMode := m' } } = .next t' →
    t.response = t'.response ∧ t.fifo = t'.fifo ∧ t.lsr = t'.lsr ∧ t.ints = t'.ints ∧
    (s.iir ≠ code .cti → t.iir = t'.iir ∧ t.irq = t'.irq ∧ t.out = t'.out)

/-! ### Register writes -/

/-- WR.DLL, WR.DLH, WR.LCR and WR.MCR: their words, the register each stores, and nothing else changes; bit 7 of a
byte written to LCR is the new DLAB (43_register_writes.md R181, R183, R185, R186). -/
def Obligations.StoreOnlyWritesStoreTheByte : Prop :=
  (∀ v : Byte,
    decodeWord true (0x10#8 ++ v) = .ok (.wrDll v) ∧ decodeWord true (0x11#8 ++ v) = .ok (.wrDlh v) ∧
    ∀ dlab : Bool, decodeWord dlab (0x13#8 ++ v) = .ok (.wrLcr v) ∧
      decodeWord dlab (0x14#8 ++ v) = .ok (.wrMcr v)) ∧
  (∀ (v : Byte) (s : State),
    exec (.wrDll v) s = .next { s with dll := v, response := .nothing } ∧
    exec (.wrDlh v) s = .next { s with dlh := v, response := .nothing } ∧
    exec (.wrLcr v) s = .next { s with lcr := v, response := .nothing } ∧
    State.dlab { s with lcr := v, response := .nothing } = v.getLsbD 7 ∧
    exec (.wrMcr v) s = .next { s with mcr := v, response := .nothing })

/-- WR.FCR stores the byte and nothing else happens: no bit of it clears the FIFO or changes the interrupt logic
(43_register_writes.md, WR.FCR; D32, log entry 22). -/
def Obligations.WrFcrOnlyStores : Prop :=
  (∀ (dlab : Bool) (v : Byte), decodeWord dlab (0x12#8 ++ v) = .ok (.wrFcr v)) ∧
  ∀ (v : Byte) (s : State), exec (.wrFcr v) s = .next { s with fcr := v, response := .nothing }

/-- WR.THR: its word; the byte goes out first, THRE ends up set, THRI becomes pending, and it is reported exactly
when enabled and IIR holds NO_INT, MSI or THRI; nothing else changes (43_register_writes.md R180). -/
def Obligations.WrThrTransmitsThenSignals : Prop :=
  (∀ v : Byte, decodeWord false (0x10#8 ++ v) = .ok (.wrThr v)) ∧
  ∀ (v : Byte) (s : State), ∃ t : State, exec (.wrThr v) s = .next t ∧
    t.lsr = s.lsr ||| lsrThre ∧
    t.ints = { s.ints with thri := true } ∧
    (if s.ier.getLsbD 1 = true ∧ (s.iir = noInt ∨ s.iir = code .msi ∨ s.iir = code .thri) then
      t.iir = code .thri ∧ t.irq = true ∧ t.out = s.out ++ [.tx v, .raise s.params.irqLine]
    else t.iir = s.iir ∧ t.irq = s.irq ∧ t.out = s.out ++ [.tx v]) ∧
    t = { s with
      lsr := t.lsr, ints := t.ints, iir := t.iir, irq := t.irq, out := t.out, response := .nothing }

/-- WR.IER: its word; the low 4 bits are stored and the pending causes re-arbitrated in the same event, CTI before
THRI; every write emits exactly one output in a state that meets the invariant, but for a THRI that may not displace
a reported CTI; nothing else changes (43_register_writes.md R182). -/
def Obligations.WrIerStoresAndRearbitrates : Prop :=
  (∀ v : Byte, decodeWord false (0x11#8 ++ v) = .ok (.wrIer v)) ∧
  ∀ (v : Byte) (s : State), ∃ t : State, exec (.wrIer v) s = .next t ∧
    t = { s with ier := v &&& 0x0F#8, iir := t.iir, irq := t.irq, out := t.out, response := .nothing } ∧
    (if s.ints.cti = true ∧ v.getLsbD 0 = true then
      if s.iir = code .rlsi ∨ s.iir = code .rdi then t.iir = s.iir ∧ t.irq = s.irq ∧ t.out = s.out
      else t.iir = code .cti ∧ t.irq = true ∧ t.out = s.out ++ [.raise s.params.irqLine]
    else if s.ints.thri = true ∧ v.getLsbD 1 = true then
      if s.iir = noInt ∨ s.iir = code .msi ∨ s.iir = code .thri then
        t.iir = code .thri ∧ t.irq = true ∧ t.out = s.out ++ [.raise s.params.irqLine]
      else t.iir = s.iir ∧ t.irq = s.irq ∧ t.out = s.out
    else t.iir = noInt ∧ t.irq = false ∧ t.out = s.out ++ [.clear s.params.irqLine]) ∧
    (s.Inv → (∃ o, t.out = s.out ++ [o]) ∨
      (t = { s with ier := v &&& 0x0F#8, response := .nothing } ∧ s.iir = code .cti ∧
        v.getLsbD 0 = false ∧ s.ints.thri = true ∧ v.getLsbD 1 = true))

/-! ### Events from outside the bus -/

/-- RX (44_external_events.md, RX): a received integer of any size is masked to 8 bits (the spec's decision D16, log
entry 16); the byte is appended whatever the FIFO holds, DR is set, CTI becomes
pending, and it is reported exactly when enabled and IIR holds neither RLSI nor RDI; nothing else changes. -/
def Obligations.RxQueuesTheByteAndSignals : Prop :=
  (∀ (dlab : Bool) (value : Nat), decodeRequest dlab (.receive value) = .ok (.rx (BitVec.ofNat 8 value))) ∧
  ∀ (b : Byte) (s : State), s.fifo.Wf → ∃ t : State, exec (.rx b) s = .next t ∧
    t.fifo.Wf ∧ t.fifo.seq = s.fifo.seq ++ [b] ∧
    t.lsr = s.lsr ||| lsrDr ∧
    t.ints = { s.ints with cti := true } ∧
    (if s.ier.getLsbD 0 = true ∧ s.iir ≠ code .rlsi ∧ s.iir ≠ code .rdi then
      t.iir = code .cti ∧ t.irq = true ∧ t.out = s.out ++ [.raise s.params.irqLine]
    else t.iir = s.iir ∧ t.irq = s.irq ∧ t.out = s.out) ∧
    t = { s with
      fifo := t.fifo, lsr := t.lsr, ints := t.ints, iir := t.iir, irq := t.irq, out := t.out
      response := .nothing }

/-- RST and QRST (44_external_events.md, RST and QRST): the spec's own decisions D5, D15, D17 (log entries 8 to
10). RST gives the registers and `ints` their power-on values and leaves the FIFO, the line and the outputs; QRST
returns the queue to its created state and leaves everything else. -/
def Obligations.ResetsRestoreTheirPart : Prop :=
  ∀ s : State,
    exec .rst s = .next { s with
      lcr := 0x03#8, lsr := 0x60#8, msr := 0x00#8, mcr := 0x00#8, ier := 0x00#8, iir := 0x01#8, fcr := 0x00#8
      dll := 0x00#8, dlh := 0x00#8
      ints := { rlsi := false, rdi := false, cti := false, thri := false, msi := false }
      response := .nothing } ∧
    exec .qrst s = .next { s with
      fifo := { storage := List.replicate 16 0x00#8, beginIdx := 0, endIdx := 0, len := 0 }
      response := .nothing }

/-! ### UnsupportedRegister -/

/-- Under `UNSUPPORTED_MODE = FAULT` the five rows RD.A4, RD.A7, WR.A5, WR.A6, WR.A7 fault with the direction and the
address (the spec's decision D11, log entry 5). -/
def Obligations.UnsupportedAccessesFault : Prop :=
  ∀ s : State, s.params.unsupportedMode = .fault →
    exec .rdA4 s = .fault (.unsupportedRegister .read 4) ∧
    (∀ a, exec (.rdA7 a) s = .fault (.unsupportedRegister .read a)) ∧
    (∀ v, exec (.wrA5 v) s = .fault (.unsupportedRegister .write 5)) ∧
    (∀ v, exec (.wrA6 v) s = .fault (.unsupportedRegister .write 6)) ∧
    (∀ a v, exec (.wrA7 a v) s = .fault (.unsupportedRegister .write a))

/-- Under `UNSUPPORTED_MODE = ERROR_RETURN` the same five rows answer an error that names the direction and the
address, and nothing else changes (the spec's decision D11, log entry 5). -/
def Obligations.UnsupportedAccessesAnswerAnError : Prop :=
  ∀ s : State, s.params.unsupportedMode = .errorReturn →
    exec .rdA4 s = .next { s with response := .error .read 4 } ∧
    (∀ a, exec (.rdA7 a) s = .next { s with response := .error .read a }) ∧
    (∀ v, exec (.wrA5 v) s = .next { s with response := .error .write 5 }) ∧
    (∀ v, exec (.wrA6 v) s = .next { s with response := .error .write 6 }) ∧
    (∀ a v, exec (.wrA7 a v) s = .next { s with response := .error .write a })

/-- No event fails but an unsupported access, which fails only as UnsupportedRegister; every other event completes in
every state, an empty receive buffer included (60_exceptions.md R210). That an unsupported access faults or, in the
other mode, answers an error is R211 with the spec's decision D11: a choice (log entry 5). -/
def Obligations.OnlyUnsupportedAccessesFail : Prop :=
  (∀ (i : Instr) (s : State), unsupportedAccess i = none → ∃ t, exec i s = .next t) ∧
  (∀ (i : Instr) (s : State) (d : Dir) (a : Nat), unsupportedAccess i = some (d, a) →
    exec i s = .fault (.unsupportedRegister d a) ∨ exec i s = .next { s with response := .error d a })

/-- The supported addresses are {0, 1, 2, 3, 5, 6} for a read and {0, 1, 2, 3, 4} for a write: a step on any other
address, any natural number, is UnsupportedRegister, whatever DLAB; on a supported one it completes
(30_encoding.md R101). -/
def Obligations.UnsupportedAddressesByDirection : Prop :=
  ∀ (s : State) (rest : List Request) (a value : Nat), s.params.unsupportedMode = .fault →
    (s.inputs = .read 1 a :: rest →
      (if a = 0 ∨ a = 1 ∨ a = 2 ∨ a = 3 ∨ a = 5 ∨ a = 6 then ∃ t, step s = .next t
      else step s = .fault (.unsupportedRegister .read a))) ∧
    (s.inputs = .write 1 a value :: rest →
      (if a = 0 ∨ a = 1 ∨ a = 2 ∨ a = 3 ∨ a = 4 then ∃ t, step s = .next t
      else step s = .fault (.unsupportedRegister .write a)))

/-- Popping an empty queue is no error: it gives no value and leaves the queue, and a read of the empty receive buffer
is an ordinary read that answers the idle byte (60_exceptions.md R212). -/
def Obligations.EmptyQueueAccessIsNoError : Prop :=
  (∀ q : Queue, q.len = 0 → q.popFront = (none, q) ∧ q.popBack = (none, q)) ∧
  (∀ s : State, s.fifo.len = 0 → ∃ t, exec .rdRbr s = .next t ∧ t.response = .byte s.params.rbrIdle ∧
    t.fifo = s.fifo)

/-- A run whose requests ask for no unsupported access is safe, however long and in either mode: it meets neither the
fault nor the error answer of UnsupportedRegister. Under `ERROR_RETURN` (the spec's decision D11, log entry 5) no run
faults, whatever it asks for (60_exceptions.md R210, R211, 70_reset_and_hazards.md R277). -/
def Obligations.SupportedRunsNeverFault : Prop :=
  (∀ (k : Nat) (s : State),
    (∀ r ∈ s.inputs, ∀ (dlab : Bool) (i : Instr), decodeRequest dlab r = .ok i → unsupportedAccess i = none) →
    safeRun k s ∧ faultFreeRun k s) ∧
  (∀ (k : Nat) (s : State), s.params.unsupportedMode = .errorReturn → faultFreeRun k s)

/-- A run that makes an unsupported access is not safe, in either mode: the error answer of `ERROR_RETURN`, too, is
something a correct guest program never causes (60_exceptions.md R211 with the spec's decision D11, log entry 5). Whatever
events `before` asks for, the run does not get past the access `r` safely. -/
def Obligations.UnsupportedAccessMakesARunUnsafe : Prop :=
  ∀ (before rest : List Request) (r : Request) (s : State) (k : Nat),
    s.inputs = before ++ r :: rest →
    (∀ q ∈ before, ∀ dlab : Bool, ∃ i, decodeRequest dlab q = .ok i) →
    (∀ dlab : Bool, ∃ i, decodeRequest dlab r = .ok i ∧ unsupportedAccess i ≠ none) →
    before.length < k → ¬ safeRun k s

/-! ### The interrupt state machine -/

/-- Priority acts in three places: SignalCTI takes over IIR unless it reports RLSI or RDI; SignalTHRI takes IIR only
from NO_INT, MSI or THRI, so never from CTI; Resolve tries CTI before THRI. A displaced THRI stays pending, and a
Resolve that finds CTI not pending or masked reports it again, unless IIR still holds the masked CTI (60_exceptions.md
section 3, 43_register_writes.md WR.IER corner c). -/
def Obligations.PriorityActsInThreePlaces : Prop :=
  ∀ s : State,
    (signalCti s).iir =
      (if s.ier.getLsbD 0 = true ∧ s.iir ≠ code .rlsi ∧ s.iir ≠ code .rdi then code .cti else s.iir) ∧
    (signalCti s).ints.thri = s.ints.thri ∧
    (signalThri s).iir =
      (if s.ier.getLsbD 1 = true ∧ (s.iir = noInt ∨ s.iir = code .msi ∨ s.iir = code .thri) then code .thri
      else s.iir) ∧
    (s.iir = code .cti → (signalThri s).iir = code .cti) ∧
    (s.ints.cti = true → s.ier.getLsbD 0 = true → s.iir ≠ code .rlsi → s.iir ≠ code .rdi →
      (resolve s).iir = code .cti ∧ (resolve s).irq = true) ∧
    (s.ints.thri = true → s.ier.getLsbD 1 = true → (s.ints.cti = false ∨ s.ier.getLsbD 0 = false) →
      if s.iir = noInt ∨ s.iir = code .msi ∨ s.iir = code .thri then
        (resolve s).iir = code .thri ∧ (resolve s).irq = true
      else resolve s = s)

/-- Acknowledge: the cause leaves `ints` and IIR becomes NO_INT always; only when the cause was the one IIR held
before are the remaining causes re-arbitrated, and otherwise there is no output (41_interrupt_state_machine.md
R143). -/
def Obligations.AcknowledgeRearbitratesOnlyOnAMatch : Prop :=
  ∀ (c : Cause) (s : State),
    (acknowledge c s).ints = s.ints.erase c ∧
    (s.iir ≠ code c → acknowledge c s = { s with ints := s.ints.erase c, iir := noInt }) ∧
    (s.iir = code c →
      acknowledge c s =
        if (s.ints.erase c).cti = true ∧ s.ier.getLsbD 0 = true then
          { s with ints := s.ints.erase c, iir := code .cti, irq := true, out := s.out ++ [.raise s.params.irqLine] }
        else if (s.ints.erase c).thri = true ∧ s.ier.getLsbD 1 = true then
          { s with ints := s.ints.erase c, iir := code .thri, irq := true, out := s.out ++ [.raise s.params.irqLine] }
        else
          { s with ints := s.ints.erase c, iir := noInt, irq := false, out := s.out ++ [.clear s.params.irqLine] })

/-- What acknowledges what: a read of IIR acknowledges THRI only when IIR held its code, and never CTI; the
acknowledgement of a read of address 0 removes RDI and CTI whether or not they are pending or reported and erases the
report of any other cause; reads of LSR and MSR acknowledge nothing; a write of THR makes THRI pending
(60_exceptions.md R227). -/
def Obligations.WhatAcknowledgesWhat : Prop :=
  (∀ s t : State, exec .rdIir s = .next t →
    (s.iir = code .thri → t.ints.thri = false) ∧ (s.iir ≠ code .thri → t.ints = s.ints ∧ t.iir = s.iir) ∧
    t.ints.cti = s.ints.cti) ∧
  (∀ s : State, (acknowledgeRbr s).ints = { s.ints with rdi := false, cti := false } ∧
    (s.iir ≠ code .rdi → s.iir ≠ code .cti → (acknowledgeRbr s).iir = noInt)) ∧
  (∀ s t : State, (exec .rdLsr s = .next t ∨ exec .rdMsr s = .next t) → t.ints = s.ints ∧ t.iir = s.iir) ∧
  (∀ (v : Byte) (s t : State), exec (.wrThr v) s = .next t → t.ints.thri = true)

/-- A cause becomes pending, and ceases to be, only as 60_exceptions.md lists it (section 2, with RST besides): CTI by
a received byte or a read of address 0 that leaves bytes, THRI by a write of THR; CTI is dismissed by a read of
address 0 or RST, THRI by a read of IIR that reports it or RST; RLSI and MSI never become pending, nor does RDI. -/
def Obligations.PendingCausesChangeOnlyAsListed : Prop :=
  ∀ (i : Instr) (s t : State), s.fifo.Wf → exec i s = .next t →
    (s.ints.cti = false → t.ints.cti = true → (∃ b, i = .rx b) ∨ (i = .rdRbr ∧ t.fifo.seq ≠ [])) ∧
    (s.ints.cti = true → t.ints.cti = false → (i = .rdRbr ∧ t.fifo.seq = []) ∨ i = .rst) ∧
    (s.ints.thri = false → t.ints.thri = true → ∃ v, i = .wrThr v) ∧
    (s.ints.thri = true → t.ints.thri = false → (i = .rdIir ∧ s.iir = code .thri) ∨ i = .rst) ∧
    (s.ints.rlsi = false → t.ints.rlsi = false) ∧ (s.ints.msi = false → t.ints.msi = false) ∧
    (s.ints.rdi = false → t.ints.rdi = false)

/-- A new report is always accompanied by a `Raise` of this port's line, and an event whose last line output is a
`Clear` leaves IIR at NO_INT; the line level is what the outputs of the event make it (60_exceptions.md section 2,
pending, reported, line). -/
def Obligations.ReportsRaiseAndClearsWithdraw : Prop :=
  ∀ (i : Instr) (s t : State), exec i s = .next t → ∃ l : List Output,
    t.out = s.out ++ l ∧ t.irq = lineAfter s.irq l ∧
    (t.iir ≠ s.iir → t.iir ≠ noInt → Output.raise s.params.irqLine ∈ l) ∧
    (lineAfter true l = false → t.iir = noInt)

/-! ### Invariants and whole-machine rules -/

/-- Every step keeps the invariant of 10_state.md section 7 (items 1 to 5 and 7, which the spec derives) and the well
formed storage of the FIFO. -/
def Obligations.StepKeepsTheInvariant : Prop :=
  ∀ s t : State, s.Inv → step s = .next t → t.Inv

/-- Every event but RST and QRST keeps DR, and the pending CTI, telling whether bytes are queued (10_state.md
section 7, item 6). -/
def Obligations.DataReadyTellsQueuedBytes : Prop :=
  ∀ (i : Instr) (s t : State), i ≠ .rst → i ≠ .qrst → s.DrInv → exec i s = .next t → t.DrInv

/-- Every step keeps the outputs accounting for the line: its level is that of the last `Raise` or `Clear`, and each
of them names this port's line (10_state.md section 4, 00_scope.md section 5). -/
def Obligations.LineFollowsTheOutputs : Prop :=
  ∀ s t : State, s.OutInv → step s = .next t → t.OutInv

/-- Every step takes exactly one request, leaves the configuration as it is and only appends to the outputs: at most
three of them (20_memory.md R73, 41_interrupt_state_machine.md R146; log entries 1, 3). -/
def Obligations.StepTakesOneRequestAndAppends : Prop :=
  ∀ s t : State, step s = .next t →
    (∃ r, s.inputs = r :: t.inputs) ∧ t.params = s.params ∧
    ∃ l : List Output, t.out = s.out ++ l ∧ l.length ≤ 3

/-- Bytes leave the FIFO in exactly the order they arrived and none is lost, duplicated or altered: what an event
hands out, followed by what stays queued, is what was queued followed by what arrived. Only RX, RD.RBR and QRST reach
the FIFO; QRST empties it (20_memory.md R81). -/
def Obligations.FifoKeepsArrivalOrder : Prop :=
  ∀ (i : Instr) (s t : State), s.fifo.Wf → exec i s = .next t →
    t.fifo.Wf ∧
    (i ≠ .qrst → bytesTaken i s ++ t.fifo.seq = s.fifo.seq ++ bytesReceived i) ∧
    (i = .qrst → t.fifo.seq = []) ∧
    ((∀ b, i ≠ .rx b) → i ≠ .rdRbr → i ≠ .qrst → t.fifo = s.fifo) ∧
    (∀ b, bytesTaken i s = [b] → t.response = .byte b)

/-- The byte sink gets exactly the bytes written to THR, each in its own event and unaltered (95_test_vectors.md E5,
E10). -/
def Obligations.TransmitsExactlyWhatIsWritten : Prop :=
  ∀ (i : Instr) (s t : State), exec i s = .next t →
    transmitted t.out = transmitted s.out ++ bytesSent i

/-- With DLAB set, addresses 0 and 1 reach DLL and DLH in both directions and nothing else: no byte is popped, none is
transmitted, no re-arbitration happens, and no request at all reaches the receive buffer, THR or IER. DLAB is bit 7 of
LCR as it stands when the step begins. Addresses 2 and above decode as with DLAB clear. DLAB changes only by a write
of LCR, to bit 7 of the byte, and by RST, to 0 (30_encoding.md R99). -/
def Obligations.DlabRedirectsTwoAddresses : Prop :=
  (∀ (a : Nat) (v : Byte), 2 ≤ a →
    decodeRead true a = decodeRead false a ∧ decodeWrite true a v = decodeWrite false a v) ∧
  (∀ (s : State) (rest : List Request) (v : Byte), s.lcr.getLsbD 7 = true →
    (s.inputs = .read 1 0 :: rest → step s = .next { s with inputs := rest, response := .byte s.dll }) ∧
    (s.inputs = .read 1 1 :: rest → step s = .next { s with inputs := rest, response := .byte s.dlh }) ∧
    (s.inputs = .write 1 0 v.toNat :: rest →
      step s = .next { s with inputs := rest, dll := v, response := .nothing }) ∧
    (s.inputs = .write 1 1 v.toNat :: rest →
      step s = .next { s with inputs := rest, dlh := v, response := .nothing })) ∧
  (∀ (r : Request) (i : Instr), decodeRequest true r = .ok i →
    i ≠ .rdRbr ∧ i ≠ .rdIer ∧ (∀ v, i ≠ .wrThr v) ∧ ∀ v, i ≠ .wrIer v) ∧
  (∀ (i : Instr) (s t : State), exec i s = .next t →
    (∀ v, i = .wrLcr v → t.lcr.getLsbD 7 = v.getLsbD 7) ∧ (i = .rst → t.lcr.getLsbD 7 = false) ∧
    ((∀ v, i ≠ .wrLcr v) → i ≠ .rst → t.lcr.getLsbD 7 = s.lcr.getLsbD 7))

/-- The block never reads its line level or its output history: with any other level and history an event has the same
outcome, and appends the same outputs (10_state.md section 4). -/
def Obligations.OutputsAreNeverRead : Prop :=
  ∀ (i : Instr) (s : State) (b : Bool) (o : List Output),
    (∀ t, exec i s = .next t → ∃ l : List Output, t.out = s.out ++ l ∧
      exec i { s with irq := b, out := o } = .next { t with irq := lineAfter b l, out := o ++ l }) ∧
    (∀ f, exec i s = .fault f → exec i { s with irq := b, out := o } = .fault f)

/-- MCR, FCR, DLL, DLH and (once DLAB has been decoded) LCR steer nothing: with any other values in them, every event
but the reads of DLL, DLH and LCR has the same effect on everything else (10_state.md sections 2.1 and 2.5). That
`exec` looks at no bit of LCR, DLAB included, since the decoder has (30_encoding.md R94), is DEDUCED (log entry 24);
that MCR, FCR and the other bits of LCR have no effect is the spec's decision D4, D31, D32, a choice (log entry 22). -/
def Obligations.InertRegistersSteerNothing : Prop :=
  ∀ (i : Instr) (s t : State) (lcr mcr fcr dll dlh : Byte),
    i ≠ .rdLcr → i ≠ .rdDll → i ≠ .rdDlh → exec i s = .next t →
    exec i { s with lcr := lcr, mcr := mcr, fcr := fcr, dll := dll, dlh := dlh } = .next { t with
      lcr := if writesLcr i then t.lcr else lcr
      mcr := if writesMcr i then t.mcr else mcr
      fcr := if writesFcr i then t.fcr else fcr
      dll := if writesDll i then t.dll else dll
      dlh := if writesDlh i then t.dlh else dlh }

/-! ### The CircularQueue -/

/-- The CircularQueue is a double-ended queue: over every sequence of operations from a new queue, every result and
the final content are the reference deque's, `get` included, and the storage stays well formed
(40_circular_queue.md section 3, 95_test_vectors.md E1, E2). -/
def Obligations.QueueActsAsADeque : Prop :=
  ∀ ops : List QueueOp,
    (Queue.new.applyAll ops).1 = (dequeApplyAll [] ops).1 ∧
    (Queue.new.applyAll ops).2.seq = (dequeApplyAll [] ops).2 ∧
    (Queue.new.applyAll ops).2.Wf ∧
    ∀ i, (Queue.new.applyAll ops).2.get? i = (dequeApplyAll [] ops).2[i]?

/-- `push_back`: below capacity it stores at `end`, advances `end` with wraparound and increments the length; at
capacity it first doubles the capacity, the content laid out from slot 0 (40_circular_queue.md R124). -/
def Obligations.PushBackStoresAtTheEnd : Prop :=
  ∀ (q : Queue) (v : Byte), q.Wf →
    (q.len < q.capacity → q.pushBack v = { q with
      storage := q.storage.set q.endIdx v, endIdx := (q.endIdx + 1) % q.capacity, len := q.len + 1 }) ∧
    (q.len = q.capacity →
      (q.pushBack v).capacity = 2 * q.capacity ∧ (q.pushBack v).beginIdx = 0 ∧
      (q.pushBack v).endIdx = q.len + 1 ∧ (q.pushBack v).len = q.len + 1 ∧
      (q.pushBack v).slot q.len = v ∧
      ∀ i, i < q.len → (q.pushBack v).slot i = q.slot ((q.beginIdx + i) % q.capacity))

/-- `push_front`: the same growth check; `begin` goes back with wraparound, the value is stored there, the length grows
by one (40_circular_queue.md R125). -/
def Obligations.PushFrontStoresAtTheBegin : Prop :=
  ∀ (q : Queue) (v : Byte), q.Wf →
    (q.len < q.capacity → ∃ b, b = (if q.beginIdx = 0 then q.capacity - 1 else q.beginIdx - 1) ∧
      q.pushFront v = { q with storage := q.storage.set b v, beginIdx := b, len := q.len + 1 }) ∧
    (q.len = q.capacity →
      (q.pushFront v).capacity = 2 * q.capacity ∧ (q.pushFront v).beginIdx = 2 * q.capacity - 1 ∧
      (q.pushFront v).endIdx = q.len ∧ (q.pushFront v).len = q.len + 1 ∧
      (q.pushFront v).slot (2 * q.capacity - 1) = v ∧
      ∀ i, i < q.len → (q.pushFront v).slot i = q.slot ((q.beginIdx + i) % q.capacity))

/-- The shrink check of both pops, made with the length before the removal: a quarter of the capacity is the candidate;
the storage shrinks to it exactly when the length is at most half of it and it is at least `min_capacity`, so only
from 512 slots up; it is then at most half full, its content laid out from slot 0 (40_circular_queue.md R127). -/
def Obligations.PopsShrinkOnlyASparseQueue : Prop :=
  ∀ q : Queue, q.Wf → q.len ≠ 0 →
    q.popFront.2.capacity = q.popBack.2.capacity ∧
    (if q.len ≤ q.capacity / 4 / 2 ∧ 128 ≤ q.capacity / 4 then
      q.popFront.2.capacity = q.capacity / 4 ∧ 512 ≤ q.capacity ∧
        q.len ≤ q.popFront.2.capacity / 2 ∧ 128 ≤ q.popFront.2.capacity ∧
        q.popBack.2.beginIdx = 0 ∧ q.popFront.2.beginIdx = 1 ∧
        (∀ i, i < q.len - 1 → q.popBack.2.slot i = q.slot ((q.beginIdx + i) % q.capacity)) ∧
        ∀ i, i < q.len - 1 → q.popFront.2.slot (i + 1) = q.slot ((q.beginIdx + (i + 1)) % q.capacity)
    else q.popFront.2.capacity = q.capacity)

/-- A slot that holds no live element after a pop holds the sentinel, so no removed element stays observable
(40_circular_queue.md R132). -/
def Obligations.VacatedSlotsHoldTheSentinel : Prop :=
  ∀ (q q' : Queue) (i : Nat), q.Wf → (q' = q.popFront.2 ∨ q' = q.popBack.2) → i < q'.capacity →
    (∀ j, j < q'.len → (q'.beginIdx + j) % q'.capacity ≠ i) → q'.storage[i]? = some 0x00#8

/-! ### The signal-level view -/

/-- What the illustrative ports show of a step. One strobe runs its event at the current state. A read drives `rdata`
with the byte it answers, on a supported address only; a write drives `txdata` and pulses `tx_valid` exactly on address
0 with DLAB clear; `fault` pulses exactly on an unsupported address, in either mode; `irq` is the line after the step.
Without a strobe nothing changes, and no pulse or byte of an earlier event is shown again (00_scope.md section 5; the
spec's decision D21, log entry 20). -/
def Obligations.PortsShowTheStep : Prop :=
  ∀ (s : State) (p : PortsIn),
    (p.rd = true → p.wr = false → p.rx = false → p.rst = false →
      portStep p s = exec (decodeRead (s.lcr.getLsbD 7) p.addr.toNat) s ∧
      (portsOut p s (portStep p s)).txValid = false ∧ (portsOut p s (portStep p s)).txdata = none ∧
      (portsOut p s (portStep p s)).fault = !readSupported p.addr.toNat ∧
      (readSupported p.addr.toNat = true → ∃ t b, portStep p s = .next t ∧ t.response = .byte b ∧
        (portsOut p s (portStep p s)).rdata = some b) ∧
      (readSupported p.addr.toNat = false → (portsOut p s (portStep p s)).rdata = none)) ∧
    (p.wr = true → p.rd = false → p.rx = false → p.rst = false →
      portStep p s = exec (decodeWrite (s.lcr.getLsbD 7) p.addr.toNat p.wdata) s ∧
      (portsOut p s (portStep p s)).rdata = none ∧
      (portsOut p s (portStep p s)).txValid = decide (p.addr = 0#3 ∧ s.lcr.getLsbD 7 = false) ∧
      (portsOut p s (portStep p s)).txdata =
        (if p.addr = 0#3 ∧ s.lcr.getLsbD 7 = false then some p.wdata else none) ∧
      (portsOut p s (portStep p s)).fault = !writeSupported p.addr.toNat) ∧
    (p.rx = true → p.rd = false → p.wr = false → p.rst = false →
      portStep p s = exec (.rx p.rxdata) s ∧
      ∃ t, portStep p s = .next t ∧ portsOut p s (portStep p s) =
        { rdata := none, irq := t.irq, txValid := false, txdata := none, fault := false }) ∧
    (p.rst = true → p.rd = false → p.wr = false → p.rx = false →
      portStep p s = exec .rst s ∧ portsOut p s (portStep p s) =
        { rdata := none, irq := s.irq, txValid := false, txdata := none, fault := false }) ∧
    (p.rd = false → p.wr = false → p.rx = false → p.rst = false →
      portStep p s = .next s ∧ portsOut p s (portStep p s) =
        { rdata := none, irq := s.irq, txValid := false, txdata := none, fault := false }) ∧
    (∀ t, portStep p s = .next t → (portsOut p s (portStep p s)).irq = t.irq) ∧
    (∀ f, portStep p s = .fault f → (portsOut p s (portStep p s)).irq = s.irq)

/-! ### Where the registers sit -/

/-- A system address is register address `a` of the block exactly when it is `UART_BASE` plus `a` (stride 1), for every
base; and no step looks at the base: the block sees the register address only (20_memory.md section 1; `UART_BASE` is
OPEN, the spec's D24, log entry 25). -/
def Obligations.StepsSeeRegisterAddressesOnly : Prop :=
  (∀ (p : Params) (sys a : Nat), registerAddr p sys = some a ↔ sys = systemAddr p a) ∧
  (∀ (p : Params) (width a value : Nat),
    busRead p width (p.uartBase + a) = some (.read width a) ∧
    busWrite p width (p.uartBase + a) value = some (.write width a value)) ∧
  (∀ (p : Params) (width sys value : Nat), sys < p.uartBase →
    busRead p width sys = none ∧ busWrite p width sys value = none) ∧
  (∀ (s : State) (base : Nat),
    (∀ t, step s = .next t → step { s with params := { s.params with uartBase := base } } =
      .next { t with params := { t.params with uartBase := base } }) ∧
    (∀ f, step s = .fault f → step { s with params := { s.params with uartBase := base } } = .fault f) ∧
    (∀ w, step s = .refused w → step { s with params := { s.params with uartBase := base } } = .refused w))
end

