-- ==== Sys2Proof/Laws/Decode.lean ====
section
/-! SUPPORT. The fields of an event word made by `mkWord` (30_encoding.md R91), the word made of the fields of an
event word, and the masking of integers to bytes (R96). -/

namespace Sys2Proof

variable (k : BitVec 4) (a : BitVec 3) (d : Byte)


@[simp] theorem kindField_mkWord : kindField (mkWord k a d) = k := by
  ext i hi
  simp only [kindField, mkWord, BitVec.getElem_extractLsb', BitVec.getLsbD_append]
  rw [if_neg (by omega)]
  simp [BitVec.getLsbD_eq_getElem, hi]

@[simp] theorem addrField_mkWord : addrField (mkWord k a d) = a := by
  ext i hi
  simp only [addrField, mkWord, BitVec.getElem_extractLsb', BitVec.getLsbD_append]
  rw [if_pos (by omega), if_pos (by omega), if_neg (by omega)]
  simp [BitVec.getLsbD_eq_getElem, hi]

@[simp] theorem dataField_mkWord : dataField (mkWord k a d) = d := by
  ext i hi
  simp only [dataField, mkWord, BitVec.getElem_extractLsb', BitVec.getLsbD_append]
  rw [if_pos (by omega), if_pos (by omega), if_pos (by omega)]
  simp [BitVec.getLsbD_eq_getElem, hi]

@[simp] theorem zField_mkWord : zField (mkWord k a d) = 0#1 := by
  ext i hi
  simp only [zField, mkWord, BitVec.getElem_extractLsb', BitVec.getLsbD_append]
  rw [if_pos (by omega), if_neg (by omega)]
  simp

/-- A word whose reserved bit is 0 is made of its fields (R91). -/
theorem mkWord_fields (e : EventWord) (hz : zField e = 0#1) : mkWord (kindField e) (addrField e) (dataField e) = e := by
  ext i hi
  have hz' : e.getLsbD 11 = false := by
    have := congrArg (·.getLsbD 0) hz
    simpa [zField] using this
  simp only [← BitVec.getLsbD_eq_getElem]
  simp only [mkWord, kindField, addrField, dataField, BitVec.getLsbD_append, BitVec.getLsbD_extractLsb']
  by_cases h1 : i < 8
  · simp [h1, show i < 11 by omega, show i < 12 by omega]
  by_cases h2 : i < 11
  · simp [h1, h2, show i < 12 by omega, show i - 8 < 3 by omega, show 8 + (i - 8) = i by omega]
  by_cases h3 : i < 12
  · have : i = 11 := by omega
    subst this; simpa using hz'
  · simp [h3, show i - 12 < 4 by omega, show 12 + (i - 12) = i by omega]

/-- `value & 0xFF` keeps a value that is a byte, and drops the bits above (R96). -/
theorem maskByte_toNat (n : Nat) : (maskByte n).toNat = n % 256 := by
  simp [maskByte]

theorem maskByte_mod (n : Nat) : maskByte (n % 256) = maskByte n := by
  simp [maskByte]

theorem maskByte_of_toNat (v : Byte) : maskByte v.toNat = v := by
  apply BitVec.eq_of_toNat_eq
  rw [maskByte_toNat]
  exact Nat.mod_eq_of_lt v.isLt

end Sys2Proof
end

