-- ==== Sys2Proof/Laws/Queue.lean ====
section
/-! SUPPORT. The CircularQueue keeps its invariants (40_circular_queue.md R121) under every operation, and each
operation does to the abstract sequence what a double-ended queue does (R133). -/

namespace Sys2Proof.Machine.Queue

/-! ### Index arithmetic (30_encoding.md R106) -/

theorem wrap_eq {b c i : Nat} (hb : b < c) (hi : i ≤ c) :
    (b + i) % c = if b + i < c then b + i else b + i - c := by
  split
  · exact Nat.mod_eq_of_lt ‹_›
  · rw [Nat.mod_eq_sub_mod (by omega), Nat.mod_eq_of_lt (by omega)]

/-- Two logical positions less than the capacity lie in two slots. -/
theorem wrap_inj {b c i j : Nat} (hb : b < c) (hi : i < c) (hj : j < c)
    (h : (b + i) % c = (b + j) % c) : i = j := by
  rw [wrap_eq hb hi.le, wrap_eq hb hj.le] at h
  split at h <;> split at h <;> omega

theorem wrap_lt {b c i : Nat} (hb : b < c) : (b + i) % c < c := Nat.mod_lt _ (by omega)

/-! ### The abstract sequence -/

variable {q : Queue} {v : Byte}

@[simp] theorem seq_length : q.seq.length = q.len := by simp [seq]

@[simp] theorem seq_getElem {i : Nat} (h : i < q.seq.length) : q.seq[i] = q.slot (q.physical i) := by
  simp [seq]

/-- A byte list is the abstract sequence when it has the queue's length and its elements. -/
theorem seq_eq {l : List Byte} (hl : l.length = q.len)
    (h : ∀ i (hi : i < l.length), q.slot (q.physical i) = l[i]) : q.seq = l :=
  List.ext_getElem (by simp [hl]) (fun i h1 h2 => by simp [h i h2])

theorem isEmpty_iff : q.isEmpty = true ↔ q.len = 0 := by simp [isEmpty]

theorem seq_eq_nil : q.seq = [] ↔ q.len = 0 := by
  rw [← List.length_eq_zero_iff, seq_length]

theorem physical_lt (h : q.Wf) (i : Nat) : q.physical i < q.capacity := Nat.mod_lt _ (by have := h.2.1; omega)

/-- `get` reads the abstract sequence (R123, R133). -/
theorem get?_eq_seq (i : Nat) : q.get? i = q.seq[i]? := by
  unfold get?
  split
  · rw [List.getElem?_eq_getElem (by simpa)]; simp
  · rw [List.getElem?_eq_none (by simp; omega)]

/-! ### Slots after a store -/

theorem getD_set (l : List Byte) (i j : Nat) (w : Byte) (hj : j < l.length) :
    (l.set j w).getD i queueEmptyValue = if i = j then w else l.getD i queueEmptyValue := by
  simp only [List.getD_eq_getElem?_getD, List.getElem?_set]
  by_cases h : j = i
  · subst h; simp [hj]
  · simp [h, Ne.symm h]

/-! ### Creation and reallocation -/

theorem new_wf : new.Wf := by decide

@[simp] theorem new_seq : new.seq = [] := rfl

@[simp] theorem realloc_len (n : Nat) : (q.realloc n).len = q.len := rfl
@[simp] theorem realloc_beginIdx (n : Nat) : (q.realloc n).beginIdx = 0 := rfl
@[simp] theorem realloc_endIdx (n : Nat) : (q.realloc n).endIdx = q.len % n := rfl

theorem realloc_capacity {n : Nat} (h : q.Wf) (hn : q.len ≤ n) : (q.realloc n).capacity = n := by
  have h1 := h.1
  have h2 := h.2.1
  simp only [capacity] at h1 h2
  simp only [capacity, realloc, List.length_append, List.length_take, List.length_drop, List.length_replicate]
  omega

/-- After a reallocation slot `i` holds logical element `i`, and the sentinel beyond the live elements (R126). -/
theorem realloc_slot {n : Nat} (h : q.Wf) (i : Nat) :
    (q.realloc n).slot i = if i < q.len then q.slot (q.physical i) else queueEmptyValue := by
  obtain ⟨h1, h2, -⟩ := h
  simp only [slot, physical, realloc, capacity] at *
  rw [List.getD_eq_getElem?_getD, List.append_assoc]
  by_cases hi : i < q.len
  · rw [if_pos hi, wrap_eq h2 (by omega)]
    by_cases hw : q.beginIdx + i < q.storage.length
    · rw [if_pos hw, List.getElem?_append_left (by simp; omega)]
      rw [List.getElem?_take_of_lt (by omega), List.getElem?_drop, List.getD_eq_getElem?_getD]
    · rw [if_neg hw, List.getElem?_append_right (by simp; omega)]
      rw [List.getElem?_append_left (by simp; omega), List.getElem?_take_of_lt (by simp; omega)]
      rw [List.getD_eq_getElem?_getD]
      congr 2
      simp
      omega
  · rw [if_neg hi, List.getElem?_append_right (by simp; omega), List.getElem?_append_right (by simp; omega)]
    rw [List.getElem?_replicate]
    split <;> simp

theorem realloc_seq {n : Nat} (h : q.Wf) (hn : q.len ≤ n) : (q.realloc n).seq = q.seq := by
  refine seq_eq (by simp) (fun i hi => ?_)
  have hi' : i < q.len := by simpa using hi
  rw [seq_getElem, realloc_slot h, physical, realloc_beginIdx, realloc_capacity h hn, Nat.zero_add,
    Nat.mod_eq_of_lt (by omega), if_pos hi']

theorem realloc_wf {n : Nat} (h : q.Wf) (hn : q.len ≤ n) (h16 : queueInitCapacity ≤ n)
    (hp : 2 ^ Nat.log2 n = n) : (q.realloc n).Wf := by
  have hc := realloc_capacity h hn
  have hn0 : 0 < n := Nat.lt_of_lt_of_le (by decide) h16
  refine ⟨by rw [hc]; exact hn, by rw [hc]; exact hn0, by rw [hc]; simp, by rw [hc]; exact hp,
    by rw [hc]; exact h16, fun i hi => ?_⟩
  rw [hc] at hi
  rw [realloc_slot h, physical, hc, realloc_beginIdx, realloc_len]
  rw [realloc_len] at hi
  rw [Nat.zero_add, Nat.mod_eq_of_lt (by omega), if_neg (by omega)]

/-! ### The growth check and the shrink check -/

theorem grow_len : q.grow.len = q.len := by
  unfold grow; split <;> simp

theorem grow_capacity (h : q.Wf) :
    q.grow.capacity = if q.len = q.capacity then 2 * q.capacity else q.capacity := by
  have := h.1
  unfold grow; split
  · exact realloc_capacity h (by omega)
  · rfl

/-- The growth check leaves the content as it is and makes room (R124, R126). -/
theorem grow_spec (h : q.Wf) : q.grow.Wf ∧ q.grow.seq = q.seq ∧ q.grow.len < q.grow.capacity := by
  obtain ⟨h1, h2, -, h4, h5, -⟩ := id h
  unfold grow
  split
  · refine ⟨realloc_wf h (by omega) (by omega) ?_, realloc_seq h (by omega), ?_⟩
    · rw [Nat.log2_two_mul (by omega), Nat.pow_succ, h4, Nat.mul_comm]
    · rw [realloc_capacity h (by omega)]; simp; omega
  · exact ⟨h, rfl, by omega⟩

theorem shrinkCheck_len : q.shrinkCheck.len = q.len := by
  unfold shrinkCheck; simp only []; split <;> simp

theorem shrinkCheck_capacity (h : q.Wf) :
    q.shrinkCheck.capacity =
      if q.len ≤ q.capacity / 4 / 2 ∧ queueMinCapacity ≤ q.capacity / 4 then q.capacity / 4 else q.capacity := by
  unfold shrinkCheck; simp only []; split
  · exact realloc_capacity h (by omega)
  · rfl

/-- A quarter of a power of two that is at least four is a power of two. -/
theorem quarter_pow2 {c : Nat} (hc : 2 ^ Nat.log2 c = c) (h4 : 4 ≤ c) : 2 ^ Nat.log2 (c / 4) = c / 4 := by
  obtain ⟨k, hk⟩ : ∃ k, Nat.log2 c = k + 2 := by
    refine ⟨Nat.log2 c - 2, ?_⟩
    have : ¬ Nat.log2 c ≤ 1 := fun hle => by
      have := Nat.pow_le_pow_right (n := 2) (by omega) hle
      omega
    omega
  have : c / 4 = 2 ^ k := by rw [← hc, hk, Nat.pow_add]; omega
  rw [this, Nat.log2_two_pow]

/-- The shrink check leaves the content as it is (R127). -/
theorem shrinkCheck_spec (h : q.Wf) : q.shrinkCheck.Wf ∧ q.shrinkCheck.seq = q.seq := by
  unfold shrinkCheck
  simp only []
  split
  · rename_i hs
    simp only [queueMinCapacity] at hs
    exact ⟨realloc_wf h (by omega) (by simp only [queueInitCapacity]; omega)
      (quarter_pow2 h.2.2.2.1 (by omega)), realloc_seq h (by omega)⟩
  · exact ⟨h, rfl⟩

/-! ### The four ends -/

theorem pushBack_len : (q.pushBack v).len = q.len + 1 := by simp [pushBack, grow_len]

theorem pushFront_len : (q.pushFront v).len = q.len + 1 := by simp [pushFront, grow_len]

/-- `push_back` appends (R124, R133). -/
theorem pushBack_spec (h : q.Wf) : (q.pushBack v).Wf ∧ (q.pushBack v).seq = q.seq ++ [v] := by
  obtain ⟨hg, hs, hlt⟩ := grow_spec h
  rw [← hs, pushBack]
  generalize q.grow = g at hg hs hlt
  obtain ⟨h1, h2, h3, h4, h5, h6⟩ := id hg
  have he : g.endIdx < g.storage.length := h3 ▸ wrap_lt h2
  have hcap : ∀ a b c, (Queue.mk (g.storage.set g.endIdx v) a b c).capacity = g.capacity := by
    simp [capacity]
  have hslot : ∀ a b c i, (Queue.mk (g.storage.set g.endIdx v) a b c).slot i =
      if i = g.endIdx then v else g.slot i := fun _ _ _ i => getD_set _ _ _ _ he
  constructor
  · refine ⟨by rw [hcap]; exact hlt, by rw [hcap]; exact h2, ?_, by rw [hcap]; exact h4, by rw [hcap]; exact h5, ?_⟩
    · rw [hcap, h3]; simp only []; rw [← Nat.add_assoc, Nat.mod_add_mod]
    · intro i hi
      rw [hcap] at hi
      simp only [] at hi
      rw [hslot, physical, hcap]
      simp only []
      rw [if_neg, Nat.add_right_comm, Nat.add_assoc]
      · exact h6 (i + 1) (by omega)
      · rw [h3]; intro hne
        have := wrap_inj h2 (by omega) (by omega) hne
        omega
  · refine seq_eq (by simp) (fun i hi => ?_)
    simp only [List.length_append, seq_length, List.length_singleton] at hi
    rw [hslot, physical, hcap]
    simp only []
    rw [List.getElem_append]
    by_cases hi' : i < g.len
    · rw [dif_pos (by simpa), if_neg]
      · simp [physical]
      · rw [h3]; intro hne
        have := wrap_inj h2 (by omega) (by omega) hne
        omega
    · have : i = g.len := by omega
      subst this
      rw [dif_neg (by simp), if_pos h3.symm]
      simp

/-- `push_front` prepends (R125, R133). -/
theorem pushFront_spec (h : q.Wf) : (q.pushFront v).Wf ∧ (q.pushFront v).seq = v :: q.seq := by
  obtain ⟨hg, hs, hlt⟩ := grow_spec h
  rw [← hs, pushFront]
  generalize q.grow = g at hg hs hlt
  obtain ⟨h1, h2, h3, h4, h5, h6⟩ := id hg
  generalize hb : (g.beginIdx + g.capacity - 1) % g.capacity = b
  have hbc : b < g.capacity := hb ▸ Nat.mod_lt _ (by omega)
  have hbe : b = if g.beginIdx = 0 then g.capacity - 1 else g.beginIdx - 1 := by
    rw [← hb]
    split
    · rw [‹g.beginIdx = 0›, Nat.zero_add, Nat.mod_eq_of_lt (by omega)]
    · rw [show g.beginIdx + g.capacity - 1 = g.beginIdx - 1 + g.capacity by omega, Nat.add_mod_right,
        Nat.mod_eq_of_lt (by omega)]
  have hstep : ∀ i, i < g.capacity → (b + (i + 1)) % g.capacity = (g.beginIdx + i) % g.capacity := by
    intro i hi
    rw [wrap_eq hbc (by omega), wrap_eq h2 hi.le, hbe]
    split_ifs <;> omega
  have hcap : ∀ x y z, (Queue.mk (g.storage.set b v) x y z).capacity = g.capacity := by
    simp [capacity]
  have hslot : ∀ x y z i, (Queue.mk (g.storage.set b v) x y z).slot i =
      if i = b then v else g.slot i := fun _ _ _ i => getD_set _ _ _ _ hbc
  have hne : ∀ i, i + 1 < g.capacity → (b + (i + 1)) % g.capacity ≠ b := by
    intro i hi hne
    rw [wrap_eq hbc (by omega)] at hne
    split at hne <;> omega
  constructor
  · refine ⟨by rw [hcap]; exact hlt, by rw [hcap]; exact hbc, ?_, by rw [hcap]; exact h4, by rw [hcap]; exact h5, ?_⟩
    · rw [hcap]; simp only []; rw [hstep _ hlt, h3]
    · intro i hi
      rw [hcap] at hi
      simp only [] at hi
      rw [hslot, physical, hcap]
      simp only []
      rw [show g.len + 1 + i = (g.len + i) + 1 by omega, if_neg (hne _ (by omega)), hstep _ (by omega)]
      exact h6 i (by omega)
  · refine seq_eq (by simp) (fun i hi => ?_)
    simp only [List.length_cons, seq_length] at hi
    rw [hslot, physical, hcap]
    simp only []
    cases i with
    | zero => rw [Nat.add_zero, Nat.mod_eq_of_lt hbc, if_pos rfl]; rfl
    | succ i =>
      rw [if_neg (hne _ (by omega)), hstep _ (by omega)]
      simp [physical]

/-- `pop_front` removes the oldest byte (R129, R133). -/
theorem popFront_spec (h : q.Wf) :
    q.popFront.2.Wf ∧ q.popFront.1 = q.seq.head? ∧ q.popFront.2.seq = q.seq.tail := by
  unfold popFront
  split
  · rename_i h0
    rw [seq_eq_nil.2 h0]
    exact ⟨h, rfl, rfl⟩
  · rename_i h0
    obtain ⟨hg, hs⟩ := shrinkCheck_spec h
    rw [← hs]
    have hl := shrinkCheck_len (q := q)
    generalize q.shrinkCheck = g at hg hs hl
    simp only []
    obtain ⟨h1, h2, h3, h4, h5, h6⟩ := id hg
    have hcap : ∀ x y z, (Queue.mk (g.storage.set g.beginIdx queueEmptyValue) x y z).capacity = g.capacity := by
      simp [capacity]
    have hslot : ∀ x y z i, (Queue.mk (g.storage.set g.beginIdx queueEmptyValue) x y z).slot i =
        if i = g.beginIdx then queueEmptyValue else g.slot i := fun _ _ _ i => getD_set _ _ _ _ h2
    have hshift : ∀ i, ((g.beginIdx + 1) % g.capacity + i) % g.capacity = (g.beginIdx + (1 + i)) % g.capacity := by
      intro i; rw [Nat.mod_add_mod, Nat.add_assoc]
    refine ⟨⟨by rw [hcap]; simp only []; omega, by rw [hcap]; exact Nat.mod_lt _ (by omega), ?_,
      by rw [hcap]; exact h4, by rw [hcap]; exact h5, ?_⟩, ?_, ?_⟩
    · rw [hcap]; simp only []
      rw [hshift, h3]; congr 2; omega
    · intro i hi
      rw [hcap] at hi
      simp only [] at hi
      rw [hslot, physical, hcap]
      simp only []
      rw [hshift]
      split
      · rfl
      · rename_i hne
        have hi' : i < g.capacity - g.len := by
          by_contra hcon
          have : 1 + (g.len - 1 + i) = g.capacity := by omega
          rw [this, Nat.add_mod_right, Nat.mod_eq_of_lt h2] at hne
          exact hne rfl
        have := h6 i hi'
        rw [physical] at this
        rw [← this]; congr 2; omega
    · rw [List.head?_eq_getElem?, List.getElem?_eq_getElem (by simp; omega)]
      simp [physical, Nat.mod_eq_of_lt h2]
    · refine seq_eq (by simp) (fun i hi => ?_)
      simp only [List.length_tail, seq_length] at hi
      rw [hslot, physical, hcap]
      simp only []
      rw [hshift, if_neg]
      · simp [physical, Nat.add_comm]
      · intro hne
        rw [wrap_eq h2 (by omega)] at hne
        split at hne <;> omega

/-- `pop_back` removes the newest byte (R128, R133). -/
theorem popBack_spec (h : q.Wf) :
    q.popBack.2.Wf ∧ q.popBack.1 = q.seq.getLast? ∧ q.popBack.2.seq = q.seq.dropLast := by
  unfold popBack
  split
  · rename_i h0
    rw [seq_eq_nil.2 h0]
    exact ⟨h, rfl, rfl⟩
  · rename_i h0
    obtain ⟨hg, hs⟩ := shrinkCheck_spec h
    rw [← hs]
    have hl := shrinkCheck_len (q := q)
    generalize q.shrinkCheck = g at hg hs hl
    simp only []
    obtain ⟨h1, h2, h3, h4, h5, h6⟩ := id hg
    have he : (g.endIdx + g.capacity - 1) % g.capacity = (g.beginIdx + (g.len - 1)) % g.capacity := by
      rw [h3, wrap_eq h2 h1, wrap_eq h2 (show g.len - 1 ≤ _ by omega)]
      split_ifs with hx hy hy
      · rw [show g.beginIdx + g.len + g.capacity - 1 = g.beginIdx + (g.len - 1) + g.capacity by omega,
          Nat.add_mod_right, Nat.mod_eq_of_lt hy]
      · omega
      · rw [Nat.mod_eq_of_lt (by omega)]; omega
      · rw [show g.beginIdx + g.len - g.capacity + g.capacity - 1 =
          g.beginIdx + (g.len - 1) - g.capacity + g.capacity by omega, Nat.add_mod_right,
          Nat.mod_eq_of_lt (by omega)]
    rw [he]
    generalize hb : (g.beginIdx + (g.len - 1)) % g.capacity = e
    have hec : e < g.capacity := hb ▸ wrap_lt h2
    have hcap : ∀ x y z, (Queue.mk (g.storage.set e queueEmptyValue) x y z).capacity = g.capacity := by
      simp [capacity]
    have hslot : ∀ x y z i, (Queue.mk (g.storage.set e queueEmptyValue) x y z).slot i =
        if i = e then queueEmptyValue else g.slot i := fun _ _ _ i => getD_set _ _ _ _ hec
    refine ⟨⟨by rw [hcap]; simp only []; omega, by rw [hcap]; exact h2, by rw [hcap]; exact hb.symm,
      by rw [hcap]; exact h4, by rw [hcap]; exact h5, ?_⟩, ?_, ?_⟩
    · intro i hi
      rw [hcap] at hi
      simp only [] at hi
      rw [hslot, physical, hcap]
      simp only []
      split
      · rfl
      · rename_i hne
        cases i with
        | zero => rw [Nat.add_zero] at hne; exact absurd hb hne
        | succ i =>
          have := h6 i (by omega)
          rw [physical] at this
          rw [← this]; congr 2; omega
    · rw [List.getLast?_eq_getElem?, List.getElem?_eq_getElem (by simp; omega)]
      simp [physical, hb]
    · refine seq_eq (by simp) (fun i hi => ?_)
      simp only [List.length_dropLast, seq_length] at hi
      rw [hslot, physical, hcap]
      simp only []
      rw [if_neg]
      · simp [physical]
      · rw [← hb]; intro hne
        have := wrap_inj h2 (by omega) (by omega) hne
        omega

end Sys2Proof.Machine.Queue
end

