-- ==== Sys2Proof/Laws/State.lean ====
section
/-! SUPPORT. One lemma per field per named update of the state, true by rfl: no later proof unfolds a record
update. -/

namespace Sys2Proof.Machine.State

variable (s : State)

/-! ### `setLcr` -/
@[simp] theorem setLcr_lcr (v : Byte) : (s.setLcr v).lcr = v := rfl
@[simp] theorem setLcr_lsr (v : Byte) : (s.setLcr v).lsr = s.lsr := rfl
@[simp] theorem setLcr_msr (v : Byte) : (s.setLcr v).msr = s.msr := rfl
@[simp] theorem setLcr_mcr (v : Byte) : (s.setLcr v).mcr = s.mcr := rfl
@[simp] theorem setLcr_ier (v : Byte) : (s.setLcr v).ier = s.ier := rfl
@[simp] theorem setLcr_iir (v : Byte) : (s.setLcr v).iir = s.iir := rfl
@[simp] theorem setLcr_fcr (v : Byte) : (s.setLcr v).fcr = s.fcr := rfl
@[simp] theorem setLcr_dll (v : Byte) : (s.setLcr v).dll = s.dll := rfl
@[simp] theorem setLcr_dlh (v : Byte) : (s.setLcr v).dlh = s.dlh := rfl
@[simp] theorem setLcr_ints (v : Byte) : (s.setLcr v).ints = s.ints := rfl
@[simp] theorem setLcr_fifo (v : Byte) : (s.setLcr v).fifo = s.fifo := rfl
@[simp] theorem setLcr_irq (v : Byte) : (s.setLcr v).irq = s.irq := rfl
@[simp] theorem setLcr_out (v : Byte) : (s.setLcr v).out = s.out := rfl
@[simp] theorem setLcr_response (v : Byte) : (s.setLcr v).response = s.response := rfl
@[simp] theorem setLcr_inputs (v : Byte) : (s.setLcr v).inputs = s.inputs := rfl
@[simp] theorem setLcr_params (v : Byte) : (s.setLcr v).params = s.params := rfl

/-! ### `setLsr` -/
@[simp] theorem setLsr_lcr (v : Byte) : (s.setLsr v).lcr = s.lcr := rfl
@[simp] theorem setLsr_lsr (v : Byte) : (s.setLsr v).lsr = v := rfl
@[simp] theorem setLsr_msr (v : Byte) : (s.setLsr v).msr = s.msr := rfl
@[simp] theorem setLsr_mcr (v : Byte) : (s.setLsr v).mcr = s.mcr := rfl
@[simp] theorem setLsr_ier (v : Byte) : (s.setLsr v).ier = s.ier := rfl
@[simp] theorem setLsr_iir (v : Byte) : (s.setLsr v).iir = s.iir := rfl
@[simp] theorem setLsr_fcr (v : Byte) : (s.setLsr v).fcr = s.fcr := rfl
@[simp] theorem setLsr_dll (v : Byte) : (s.setLsr v).dll = s.dll := rfl
@[simp] theorem setLsr_dlh (v : Byte) : (s.setLsr v).dlh = s.dlh := rfl
@[simp] theorem setLsr_ints (v : Byte) : (s.setLsr v).ints = s.ints := rfl
@[simp] theorem setLsr_fifo (v : Byte) : (s.setLsr v).fifo = s.fifo := rfl
@[simp] theorem setLsr_irq (v : Byte) : (s.setLsr v).irq = s.irq := rfl
@[simp] theorem setLsr_out (v : Byte) : (s.setLsr v).out = s.out := rfl
@[simp] theorem setLsr_response (v : Byte) : (s.setLsr v).response = s.response := rfl
@[simp] theorem setLsr_inputs (v : Byte) : (s.setLsr v).inputs = s.inputs := rfl
@[simp] theorem setLsr_params (v : Byte) : (s.setLsr v).params = s.params := rfl
@[simp] theorem setLsr_dlab (v : Byte) : (s.setLsr v).dlab = s.dlab := rfl

/-! ### `setMcr` -/
@[simp] theorem setMcr_lcr (v : Byte) : (s.setMcr v).lcr = s.lcr := rfl
@[simp] theorem setMcr_lsr (v : Byte) : (s.setMcr v).lsr = s.lsr := rfl
@[simp] theorem setMcr_msr (v : Byte) : (s.setMcr v).msr = s.msr := rfl
@[simp] theorem setMcr_mcr (v : Byte) : (s.setMcr v).mcr = v := rfl
@[simp] theorem setMcr_ier (v : Byte) : (s.setMcr v).ier = s.ier := rfl
@[simp] theorem setMcr_iir (v : Byte) : (s.setMcr v).iir = s.iir := rfl
@[simp] theorem setMcr_fcr (v : Byte) : (s.setMcr v).fcr = s.fcr := rfl
@[simp] theorem setMcr_dll (v : Byte) : (s.setMcr v).dll = s.dll := rfl
@[simp] theorem setMcr_dlh (v : Byte) : (s.setMcr v).dlh = s.dlh := rfl
@[simp] theorem setMcr_ints (v : Byte) : (s.setMcr v).ints = s.ints := rfl
@[simp] theorem setMcr_fifo (v : Byte) : (s.setMcr v).fifo = s.fifo := rfl
@[simp] theorem setMcr_irq (v : Byte) : (s.setMcr v).irq = s.irq := rfl
@[simp] theorem setMcr_out (v : Byte) : (s.setMcr v).out = s.out := rfl
@[simp] theorem setMcr_response (v : Byte) : (s.setMcr v).response = s.response := rfl
@[simp] theorem setMcr_inputs (v : Byte) : (s.setMcr v).inputs = s.inputs := rfl
@[simp] theorem setMcr_params (v : Byte) : (s.setMcr v).params = s.params := rfl
@[simp] theorem setMcr_dlab (v : Byte) : (s.setMcr v).dlab = s.dlab := rfl

/-! ### `setIer` -/
@[simp] theorem setIer_lcr (v : Byte) : (s.setIer v).lcr = s.lcr := rfl
@[simp] theorem setIer_lsr (v : Byte) : (s.setIer v).lsr = s.lsr := rfl
@[simp] theorem setIer_msr (v : Byte) : (s.setIer v).msr = s.msr := rfl
@[simp] theorem setIer_mcr (v : Byte) : (s.setIer v).mcr = s.mcr := rfl
@[simp] theorem setIer_ier (v : Byte) : (s.setIer v).ier = v := rfl
@[simp] theorem setIer_iir (v : Byte) : (s.setIer v).iir = s.iir := rfl
@[simp] theorem setIer_fcr (v : Byte) : (s.setIer v).fcr = s.fcr := rfl
@[simp] theorem setIer_dll (v : Byte) : (s.setIer v).dll = s.dll := rfl
@[simp] theorem setIer_dlh (v : Byte) : (s.setIer v).dlh = s.dlh := rfl
@[simp] theorem setIer_ints (v : Byte) : (s.setIer v).ints = s.ints := rfl
@[simp] theorem setIer_fifo (v : Byte) : (s.setIer v).fifo = s.fifo := rfl
@[simp] theorem setIer_irq (v : Byte) : (s.setIer v).irq = s.irq := rfl
@[simp] theorem setIer_out (v : Byte) : (s.setIer v).out = s.out := rfl
@[simp] theorem setIer_response (v : Byte) : (s.setIer v).response = s.response := rfl
@[simp] theorem setIer_inputs (v : Byte) : (s.setIer v).inputs = s.inputs := rfl
@[simp] theorem setIer_params (v : Byte) : (s.setIer v).params = s.params := rfl
@[simp] theorem setIer_dlab (v : Byte) : (s.setIer v).dlab = s.dlab := rfl

/-! ### `setIir` -/
@[simp] theorem setIir_lcr (v : Byte) : (s.setIir v).lcr = s.lcr := rfl
@[simp] theorem setIir_lsr (v : Byte) : (s.setIir v).lsr = s.lsr := rfl
@[simp] theorem setIir_msr (v : Byte) : (s.setIir v).msr = s.msr := rfl
@[simp] theorem setIir_mcr (v : Byte) : (s.setIir v).mcr = s.mcr := rfl
@[simp] theorem setIir_ier (v : Byte) : (s.setIir v).ier = s.ier := rfl
@[simp] theorem setIir_iir (v : Byte) : (s.setIir v).iir = v := rfl
@[simp] theorem setIir_fcr (v : Byte) : (s.setIir v).fcr = s.fcr := rfl
@[simp] theorem setIir_dll (v : Byte) : (s.setIir v).dll = s.dll := rfl
@[simp] theorem setIir_dlh (v : Byte) : (s.setIir v).dlh = s.dlh := rfl
@[simp] theorem setIir_ints (v : Byte) : (s.setIir v).ints = s.ints := rfl
@[simp] theorem setIir_fifo (v : Byte) : (s.setIir v).fifo = s.fifo := rfl
@[simp] theorem setIir_irq (v : Byte) : (s.setIir v).irq = s.irq := rfl
@[simp] theorem setIir_out (v : Byte) : (s.setIir v).out = s.out := rfl
@[simp] theorem setIir_response (v : Byte) : (s.setIir v).response = s.response := rfl
@[simp] theorem setIir_inputs (v : Byte) : (s.setIir v).inputs = s.inputs := rfl
@[simp] theorem setIir_params (v : Byte) : (s.setIir v).params = s.params := rfl
@[simp] theorem setIir_dlab (v : Byte) : (s.setIir v).dlab = s.dlab := rfl

/-! ### `setFcr` -/
@[simp] theorem setFcr_lcr (v : Byte) : (s.setFcr v).lcr = s.lcr := rfl
@[simp] theorem setFcr_lsr (v : Byte) : (s.setFcr v).lsr = s.lsr := rfl
@[simp] theorem setFcr_msr (v : Byte) : (s.setFcr v).msr = s.msr := rfl
@[simp] theorem setFcr_mcr (v : Byte) : (s.setFcr v).mcr = s.mcr := rfl
@[simp] theorem setFcr_ier (v : Byte) : (s.setFcr v).ier = s.ier := rfl
@[simp] theorem setFcr_iir (v : Byte) : (s.setFcr v).iir = s.iir := rfl
@[simp] theorem setFcr_fcr (v : Byte) : (s.setFcr v).fcr = v := rfl
@[simp] theorem setFcr_dll (v : Byte) : (s.setFcr v).dll = s.dll := rfl
@[simp] theorem setFcr_dlh (v : Byte) : (s.setFcr v).dlh = s.dlh := rfl
@[simp] theorem setFcr_ints (v : Byte) : (s.setFcr v).ints = s.ints := rfl
@[simp] theorem setFcr_fifo (v : Byte) : (s.setFcr v).fifo = s.fifo := rfl
@[simp] theorem setFcr_irq (v : Byte) : (s.setFcr v).irq = s.irq := rfl
@[simp] theorem setFcr_out (v : Byte) : (s.setFcr v).out = s.out := rfl
@[simp] theorem setFcr_response (v : Byte) : (s.setFcr v).response = s.response := rfl
@[simp] theorem setFcr_inputs (v : Byte) : (s.setFcr v).inputs = s.inputs := rfl
@[simp] theorem setFcr_params (v : Byte) : (s.setFcr v).params = s.params := rfl
@[simp] theorem setFcr_dlab (v : Byte) : (s.setFcr v).dlab = s.dlab := rfl

/-! ### `setDll` -/
@[simp] theorem setDll_lcr (v : Byte) : (s.setDll v).lcr = s.lcr := rfl
@[simp] theorem setDll_lsr (v : Byte) : (s.setDll v).lsr = s.lsr := rfl
@[simp] theorem setDll_msr (v : Byte) : (s.setDll v).msr = s.msr := rfl
@[simp] theorem setDll_mcr (v : Byte) : (s.setDll v).mcr = s.mcr := rfl
@[simp] theorem setDll_ier (v : Byte) : (s.setDll v).ier = s.ier := rfl
@[simp] theorem setDll_iir (v : Byte) : (s.setDll v).iir = s.iir := rfl
@[simp] theorem setDll_fcr (v : Byte) : (s.setDll v).fcr = s.fcr := rfl
@[simp] theorem setDll_dll (v : Byte) : (s.setDll v).dll = v := rfl
@[simp] theorem setDll_dlh (v : Byte) : (s.setDll v).dlh = s.dlh := rfl
@[simp] theorem setDll_ints (v : Byte) : (s.setDll v).ints = s.ints := rfl
@[simp] theorem setDll_fifo (v : Byte) : (s.setDll v).fifo = s.fifo := rfl
@[simp] theorem setDll_irq (v : Byte) : (s.setDll v).irq = s.irq := rfl
@[simp] theorem setDll_out (v : Byte) : (s.setDll v).out = s.out := rfl
@[simp] theorem setDll_response (v : Byte) : (s.setDll v).response = s.response := rfl
@[simp] theorem setDll_inputs (v : Byte) : (s.setDll v).inputs = s.inputs := rfl
@[simp] theorem setDll_params (v : Byte) : (s.setDll v).params = s.params := rfl
@[simp] theorem setDll_dlab (v : Byte) : (s.setDll v).dlab = s.dlab := rfl

/-! ### `setDlh` -/
@[simp] theorem setDlh_lcr (v : Byte) : (s.setDlh v).lcr = s.lcr := rfl
@[simp] theorem setDlh_lsr (v : Byte) : (s.setDlh v).lsr = s.lsr := rfl
@[simp] theorem setDlh_msr (v : Byte) : (s.setDlh v).msr = s.msr := rfl
@[simp] theorem setDlh_mcr (v : Byte) : (s.setDlh v).mcr = s.mcr := rfl
@[simp] theorem setDlh_ier (v : Byte) : (s.setDlh v).ier = s.ier := rfl
@[simp] theorem setDlh_iir (v : Byte) : (s.setDlh v).iir = s.iir := rfl
@[simp] theorem setDlh_fcr (v : Byte) : (s.setDlh v).fcr = s.fcr := rfl
@[simp] theorem setDlh_dll (v : Byte) : (s.setDlh v).dll = s.dll := rfl
@[simp] theorem setDlh_dlh (v : Byte) : (s.setDlh v).dlh = v := rfl
@[simp] theorem setDlh_ints (v : Byte) : (s.setDlh v).ints = s.ints := rfl
@[simp] theorem setDlh_fifo (v : Byte) : (s.setDlh v).fifo = s.fifo := rfl
@[simp] theorem setDlh_irq (v : Byte) : (s.setDlh v).irq = s.irq := rfl
@[simp] theorem setDlh_out (v : Byte) : (s.setDlh v).out = s.out := rfl
@[simp] theorem setDlh_response (v : Byte) : (s.setDlh v).response = s.response := rfl
@[simp] theorem setDlh_inputs (v : Byte) : (s.setDlh v).inputs = s.inputs := rfl
@[simp] theorem setDlh_params (v : Byte) : (s.setDlh v).params = s.params := rfl
@[simp] theorem setDlh_dlab (v : Byte) : (s.setDlh v).dlab = s.dlab := rfl

/-! ### `setInts` -/
@[simp] theorem setInts_lcr (v : CauseSet) : (s.setInts v).lcr = s.lcr := rfl
@[simp] theorem setInts_lsr (v : CauseSet) : (s.setInts v).lsr = s.lsr := rfl
@[simp] theorem setInts_msr (v : CauseSet) : (s.setInts v).msr = s.msr := rfl
@[simp] theorem setInts_mcr (v : CauseSet) : (s.setInts v).mcr = s.mcr := rfl
@[simp] theorem setInts_ier (v : CauseSet) : (s.setInts v).ier = s.ier := rfl
@[simp] theorem setInts_iir (v : CauseSet) : (s.setInts v).iir = s.iir := rfl
@[simp] theorem setInts_fcr (v : CauseSet) : (s.setInts v).fcr = s.fcr := rfl
@[simp] theorem setInts_dll (v : CauseSet) : (s.setInts v).dll = s.dll := rfl
@[simp] theorem setInts_dlh (v : CauseSet) : (s.setInts v).dlh = s.dlh := rfl
@[simp] theorem setInts_ints (v : CauseSet) : (s.setInts v).ints = v := rfl
@[simp] theorem setInts_fifo (v : CauseSet) : (s.setInts v).fifo = s.fifo := rfl
@[simp] theorem setInts_irq (v : CauseSet) : (s.setInts v).irq = s.irq := rfl
@[simp] theorem setInts_out (v : CauseSet) : (s.setInts v).out = s.out := rfl
@[simp] theorem setInts_response (v : CauseSet) : (s.setInts v).response = s.response := rfl
@[simp] theorem setInts_inputs (v : CauseSet) : (s.setInts v).inputs = s.inputs := rfl
@[simp] theorem setInts_params (v : CauseSet) : (s.setInts v).params = s.params := rfl
@[simp] theorem setInts_dlab (v : CauseSet) : (s.setInts v).dlab = s.dlab := rfl

/-! ### `setFifo` -/
@[simp] theorem setFifo_lcr (v : Queue) : (s.setFifo v).lcr = s.lcr := rfl
@[simp] theorem setFifo_lsr (v : Queue) : (s.setFifo v).lsr = s.lsr := rfl
@[simp] theorem setFifo_msr (v : Queue) : (s.setFifo v).msr = s.msr := rfl
@[simp] theorem setFifo_mcr (v : Queue) : (s.setFifo v).mcr = s.mcr := rfl
@[simp] theorem setFifo_ier (v : Queue) : (s.setFifo v).ier = s.ier := rfl
@[simp] theorem setFifo_iir (v : Queue) : (s.setFifo v).iir = s.iir := rfl
@[simp] theorem setFifo_fcr (v : Queue) : (s.setFifo v).fcr = s.fcr := rfl
@[simp] theorem setFifo_dll (v : Queue) : (s.setFifo v).dll = s.dll := rfl
@[simp] theorem setFifo_dlh (v : Queue) : (s.setFifo v).dlh = s.dlh := rfl
@[simp] theorem setFifo_ints (v : Queue) : (s.setFifo v).ints = s.ints := rfl
@[simp] theorem setFifo_fifo (v : Queue) : (s.setFifo v).fifo = v := rfl
@[simp] theorem setFifo_irq (v : Queue) : (s.setFifo v).irq = s.irq := rfl
@[simp] theorem setFifo_out (v : Queue) : (s.setFifo v).out = s.out := rfl
@[simp] theorem setFifo_response (v : Queue) : (s.setFifo v).response = s.response := rfl
@[simp] theorem setFifo_inputs (v : Queue) : (s.setFifo v).inputs = s.inputs := rfl
@[simp] theorem setFifo_params (v : Queue) : (s.setFifo v).params = s.params := rfl
@[simp] theorem setFifo_dlab (v : Queue) : (s.setFifo v).dlab = s.dlab := rfl

/-! ### `setInputs` -/
@[simp] theorem setInputs_lcr (v : List Request) : (s.setInputs v).lcr = s.lcr := rfl
@[simp] theorem setInputs_lsr (v : List Request) : (s.setInputs v).lsr = s.lsr := rfl
@[simp] theorem setInputs_msr (v : List Request) : (s.setInputs v).msr = s.msr := rfl
@[simp] theorem setInputs_mcr (v : List Request) : (s.setInputs v).mcr = s.mcr := rfl
@[simp] theorem setInputs_ier (v : List Request) : (s.setInputs v).ier = s.ier := rfl
@[simp] theorem setInputs_iir (v : List Request) : (s.setInputs v).iir = s.iir := rfl
@[simp] theorem setInputs_fcr (v : List Request) : (s.setInputs v).fcr = s.fcr := rfl
@[simp] theorem setInputs_dll (v : List Request) : (s.setInputs v).dll = s.dll := rfl
@[simp] theorem setInputs_dlh (v : List Request) : (s.setInputs v).dlh = s.dlh := rfl
@[simp] theorem setInputs_ints (v : List Request) : (s.setInputs v).ints = s.ints := rfl
@[simp] theorem setInputs_fifo (v : List Request) : (s.setInputs v).fifo = s.fifo := rfl
@[simp] theorem setInputs_irq (v : List Request) : (s.setInputs v).irq = s.irq := rfl
@[simp] theorem setInputs_out (v : List Request) : (s.setInputs v).out = s.out := rfl
@[simp] theorem setInputs_response (v : List Request) : (s.setInputs v).response = s.response := rfl
@[simp] theorem setInputs_inputs (v : List Request) : (s.setInputs v).inputs = v := rfl
@[simp] theorem setInputs_params (v : List Request) : (s.setInputs v).params = s.params := rfl
@[simp] theorem setInputs_dlab (v : List Request) : (s.setInputs v).dlab = s.dlab := rfl

/-! ### `respond` -/
@[simp] theorem respond_lcr (v : Response) : (s.respond v).lcr = s.lcr := rfl
@[simp] theorem respond_lsr (v : Response) : (s.respond v).lsr = s.lsr := rfl
@[simp] theorem respond_msr (v : Response) : (s.respond v).msr = s.msr := rfl
@[simp] theorem respond_mcr (v : Response) : (s.respond v).mcr = s.mcr := rfl
@[simp] theorem respond_ier (v : Response) : (s.respond v).ier = s.ier := rfl
@[simp] theorem respond_iir (v : Response) : (s.respond v).iir = s.iir := rfl
@[simp] theorem respond_fcr (v : Response) : (s.respond v).fcr = s.fcr := rfl
@[simp] theorem respond_dll (v : Response) : (s.respond v).dll = s.dll := rfl
@[simp] theorem respond_dlh (v : Response) : (s.respond v).dlh = s.dlh := rfl
@[simp] theorem respond_ints (v : Response) : (s.respond v).ints = s.ints := rfl
@[simp] theorem respond_fifo (v : Response) : (s.respond v).fifo = s.fifo := rfl
@[simp] theorem respond_irq (v : Response) : (s.respond v).irq = s.irq := rfl
@[simp] theorem respond_out (v : Response) : (s.respond v).out = s.out := rfl
@[simp] theorem respond_response (v : Response) : (s.respond v).response = v := rfl
@[simp] theorem respond_inputs (v : Response) : (s.respond v).inputs = s.inputs := rfl
@[simp] theorem respond_params (v : Response) : (s.respond v).params = s.params := rfl
@[simp] theorem respond_dlab (v : Response) : (s.respond v).dlab = s.dlab := rfl

/-! ### `irqRaise` -/
@[simp] theorem irqRaise_lcr : (s.irqRaise).lcr = s.lcr := rfl
@[simp] theorem irqRaise_lsr : (s.irqRaise).lsr = s.lsr := rfl
@[simp] theorem irqRaise_msr : (s.irqRaise).msr = s.msr := rfl
@[simp] theorem irqRaise_mcr : (s.irqRaise).mcr = s.mcr := rfl
@[simp] theorem irqRaise_ier : (s.irqRaise).ier = s.ier := rfl
@[simp] theorem irqRaise_iir : (s.irqRaise).iir = s.iir := rfl
@[simp] theorem irqRaise_fcr : (s.irqRaise).fcr = s.fcr := rfl
@[simp] theorem irqRaise_dll : (s.irqRaise).dll = s.dll := rfl
@[simp] theorem irqRaise_dlh : (s.irqRaise).dlh = s.dlh := rfl
@[simp] theorem irqRaise_ints : (s.irqRaise).ints = s.ints := rfl
@[simp] theorem irqRaise_fifo : (s.irqRaise).fifo = s.fifo := rfl
@[simp] theorem irqRaise_irq : (s.irqRaise).irq = true := rfl
@[simp] theorem irqRaise_out : (s.irqRaise).out = s.out ++ [.raise s.params.irqLine] := rfl
@[simp] theorem irqRaise_response : (s.irqRaise).response = s.response := rfl
@[simp] theorem irqRaise_inputs : (s.irqRaise).inputs = s.inputs := rfl
@[simp] theorem irqRaise_params : (s.irqRaise).params = s.params := rfl
@[simp] theorem irqRaise_dlab : (s.irqRaise).dlab = s.dlab := rfl

/-! ### `irqClear` -/
@[simp] theorem irqClear_lcr : (s.irqClear).lcr = s.lcr := rfl
@[simp] theorem irqClear_lsr : (s.irqClear).lsr = s.lsr := rfl
@[simp] theorem irqClear_msr : (s.irqClear).msr = s.msr := rfl
@[simp] theorem irqClear_mcr : (s.irqClear).mcr = s.mcr := rfl
@[simp] theorem irqClear_ier : (s.irqClear).ier = s.ier := rfl
@[simp] theorem irqClear_iir : (s.irqClear).iir = s.iir := rfl
@[simp] theorem irqClear_fcr : (s.irqClear).fcr = s.fcr := rfl
@[simp] theorem irqClear_dll : (s.irqClear).dll = s.dll := rfl
@[simp] theorem irqClear_dlh : (s.irqClear).dlh = s.dlh := rfl
@[simp] theorem irqClear_ints : (s.irqClear).ints = s.ints := rfl
@[simp] theorem irqClear_fifo : (s.irqClear).fifo = s.fifo := rfl
@[simp] theorem irqClear_irq : (s.irqClear).irq = false := rfl
@[simp] theorem irqClear_out : (s.irqClear).out = s.out ++ [.clear s.params.irqLine] := rfl
@[simp] theorem irqClear_response : (s.irqClear).response = s.response := rfl
@[simp] theorem irqClear_inputs : (s.irqClear).inputs = s.inputs := rfl
@[simp] theorem irqClear_params : (s.irqClear).params = s.params := rfl
@[simp] theorem irqClear_dlab : (s.irqClear).dlab = s.dlab := rfl

/-! ### `txPut` -/
@[simp] theorem txPut_lcr (v : Byte) : (s.txPut v).lcr = s.lcr := rfl
@[simp] theorem txPut_lsr (v : Byte) : (s.txPut v).lsr = s.lsr := rfl
@[simp] theorem txPut_msr (v : Byte) : (s.txPut v).msr = s.msr := rfl
@[simp] theorem txPut_mcr (v : Byte) : (s.txPut v).mcr = s.mcr := rfl
@[simp] theorem txPut_ier (v : Byte) : (s.txPut v).ier = s.ier := rfl
@[simp] theorem txPut_iir (v : Byte) : (s.txPut v).iir = s.iir := rfl
@[simp] theorem txPut_fcr (v : Byte) : (s.txPut v).fcr = s.fcr := rfl
@[simp] theorem txPut_dll (v : Byte) : (s.txPut v).dll = s.dll := rfl
@[simp] theorem txPut_dlh (v : Byte) : (s.txPut v).dlh = s.dlh := rfl
@[simp] theorem txPut_ints (v : Byte) : (s.txPut v).ints = s.ints := rfl
@[simp] theorem txPut_fifo (v : Byte) : (s.txPut v).fifo = s.fifo := rfl
@[simp] theorem txPut_irq (v : Byte) : (s.txPut v).irq = s.irq := rfl
@[simp] theorem txPut_out (v : Byte) : (s.txPut v).out = s.out ++ [.tx v] := rfl
@[simp] theorem txPut_response (v : Byte) : (s.txPut v).response = s.response := rfl
@[simp] theorem txPut_inputs (v : Byte) : (s.txPut v).inputs = s.inputs := rfl
@[simp] theorem txPut_params (v : Byte) : (s.txPut v).params = s.params := rfl
@[simp] theorem txPut_dlab (v : Byte) : (s.txPut v).dlab = s.dlab := rfl

/-! ### `resetRegisters` -/
@[simp] theorem resetRegisters_lcr : (s.resetRegisters).lcr = resetLcr := rfl
@[simp] theorem resetRegisters_lsr : (s.resetRegisters).lsr = resetLsr := rfl
@[simp] theorem resetRegisters_msr : (s.resetRegisters).msr = resetMsr := rfl
@[simp] theorem resetRegisters_mcr : (s.resetRegisters).mcr = resetMcr := rfl
@[simp] theorem resetRegisters_ier : (s.resetRegisters).ier = resetIer := rfl
@[simp] theorem resetRegisters_iir : (s.resetRegisters).iir = resetIir := rfl
@[simp] theorem resetRegisters_fcr : (s.resetRegisters).fcr = resetFcr := rfl
@[simp] theorem resetRegisters_dll : (s.resetRegisters).dll = resetDll := rfl
@[simp] theorem resetRegisters_dlh : (s.resetRegisters).dlh = resetDlh := rfl
@[simp] theorem resetRegisters_ints : (s.resetRegisters).ints = CauseSet.empty := rfl
@[simp] theorem resetRegisters_fifo : (s.resetRegisters).fifo = s.fifo := rfl
@[simp] theorem resetRegisters_irq : (s.resetRegisters).irq = s.irq := rfl
@[simp] theorem resetRegisters_out : (s.resetRegisters).out = s.out := rfl
@[simp] theorem resetRegisters_response : (s.resetRegisters).response = s.response := rfl
@[simp] theorem resetRegisters_inputs : (s.resetRegisters).inputs = s.inputs := rfl
@[simp] theorem resetRegisters_params : (s.resetRegisters).params = s.params := rfl

end Sys2Proof.Machine.State

namespace Sys2Proof.Machine.CauseSet

variable (x : CauseSet)

@[simp] theorem insert_rlsi_rlsi : (x.insert .rlsi).rlsi = true := rfl
@[simp] theorem insert_rlsi_rdi : (x.insert .rlsi).rdi = x.rdi := rfl
@[simp] theorem insert_rlsi_cti : (x.insert .rlsi).cti = x.cti := rfl
@[simp] theorem insert_rlsi_thri : (x.insert .rlsi).thri = x.thri := rfl
@[simp] theorem insert_rlsi_msi : (x.insert .rlsi).msi = x.msi := rfl
@[simp] theorem insert_rdi_rlsi : (x.insert .rdi).rlsi = x.rlsi := rfl
@[simp] theorem insert_rdi_rdi : (x.insert .rdi).rdi = true := rfl
@[simp] theorem insert_rdi_cti : (x.insert .rdi).cti = x.cti := rfl
@[simp] theorem insert_rdi_thri : (x.insert .rdi).thri = x.thri := rfl
@[simp] theorem insert_rdi_msi : (x.insert .rdi).msi = x.msi := rfl
@[simp] theorem insert_cti_rlsi : (x.insert .cti).rlsi = x.rlsi := rfl
@[simp] theorem insert_cti_rdi : (x.insert .cti).rdi = x.rdi := rfl
@[simp] theorem insert_cti_cti : (x.insert .cti).cti = true := rfl
@[simp] theorem insert_cti_thri : (x.insert .cti).thri = x.thri := rfl
@[simp] theorem insert_cti_msi : (x.insert .cti).msi = x.msi := rfl
@[simp] theorem insert_thri_rlsi : (x.insert .thri).rlsi = x.rlsi := rfl
@[simp] theorem insert_thri_rdi : (x.insert .thri).rdi = x.rdi := rfl
@[simp] theorem insert_thri_cti : (x.insert .thri).cti = x.cti := rfl
@[simp] theorem insert_thri_thri : (x.insert .thri).thri = true := rfl
@[simp] theorem insert_thri_msi : (x.insert .thri).msi = x.msi := rfl
@[simp] theorem insert_msi_rlsi : (x.insert .msi).rlsi = x.rlsi := rfl
@[simp] theorem insert_msi_rdi : (x.insert .msi).rdi = x.rdi := rfl
@[simp] theorem insert_msi_cti : (x.insert .msi).cti = x.cti := rfl
@[simp] theorem insert_msi_thri : (x.insert .msi).thri = x.thri := rfl
@[simp] theorem insert_msi_msi : (x.insert .msi).msi = true := rfl
@[simp] theorem erase_rlsi_rlsi : (x.erase .rlsi).rlsi = false := rfl
@[simp] theorem erase_rlsi_rdi : (x.erase .rlsi).rdi = x.rdi := rfl
@[simp] theorem erase_rlsi_cti : (x.erase .rlsi).cti = x.cti := rfl
@[simp] theorem erase_rlsi_thri : (x.erase .rlsi).thri = x.thri := rfl
@[simp] theorem erase_rlsi_msi : (x.erase .rlsi).msi = x.msi := rfl
@[simp] theorem erase_rdi_rlsi : (x.erase .rdi).rlsi = x.rlsi := rfl
@[simp] theorem erase_rdi_rdi : (x.erase .rdi).rdi = false := rfl
@[simp] theorem erase_rdi_cti : (x.erase .rdi).cti = x.cti := rfl
@[simp] theorem erase_rdi_thri : (x.erase .rdi).thri = x.thri := rfl
@[simp] theorem erase_rdi_msi : (x.erase .rdi).msi = x.msi := rfl
@[simp] theorem erase_cti_rlsi : (x.erase .cti).rlsi = x.rlsi := rfl
@[simp] theorem erase_cti_rdi : (x.erase .cti).rdi = x.rdi := rfl
@[simp] theorem erase_cti_cti : (x.erase .cti).cti = false := rfl
@[simp] theorem erase_cti_thri : (x.erase .cti).thri = x.thri := rfl
@[simp] theorem erase_cti_msi : (x.erase .cti).msi = x.msi := rfl
@[simp] theorem erase_thri_rlsi : (x.erase .thri).rlsi = x.rlsi := rfl
@[simp] theorem erase_thri_rdi : (x.erase .thri).rdi = x.rdi := rfl
@[simp] theorem erase_thri_cti : (x.erase .thri).cti = x.cti := rfl
@[simp] theorem erase_thri_thri : (x.erase .thri).thri = false := rfl
@[simp] theorem erase_thri_msi : (x.erase .thri).msi = x.msi := rfl
@[simp] theorem erase_msi_rlsi : (x.erase .msi).rlsi = x.rlsi := rfl
@[simp] theorem erase_msi_rdi : (x.erase .msi).rdi = x.rdi := rfl
@[simp] theorem erase_msi_cti : (x.erase .msi).cti = x.cti := rfl
@[simp] theorem erase_msi_thri : (x.erase .msi).thri = x.thri := rfl
@[simp] theorem erase_msi_msi : (x.erase .msi).msi = false := rfl
@[simp] theorem mem_rlsi : x.mem .rlsi = x.rlsi := rfl
@[simp] theorem empty_rlsi : CauseSet.empty.rlsi = false := rfl
@[simp] theorem mem_rdi : x.mem .rdi = x.rdi := rfl
@[simp] theorem empty_rdi : CauseSet.empty.rdi = false := rfl
@[simp] theorem mem_cti : x.mem .cti = x.cti := rfl
@[simp] theorem empty_cti : CauseSet.empty.cti = false := rfl
@[simp] theorem mem_thri : x.mem .thri = x.thri := rfl
@[simp] theorem empty_thri : CauseSet.empty.thri = false := rfl
@[simp] theorem mem_msi : x.mem .msi = x.msi := rfl
@[simp] theorem empty_msi : CauseSet.empty.msi = false := rfl

end Sys2Proof.Machine.CauseSet
end

