-- ==== Sys2Proof/Laws/Ops.lean ====
section
/-! SUPPORT. What each shared operation of Machine/Ops.lean can do, said once: the interrupt procedures write only
`ints`, `iir`, `irq` and `out` (41_interrupt_state_machine.md), which of their branches runs and what it leaves
(R140 to R144), and which outputs they append. -/

namespace Sys2Proof.Machine

variable (s : State) (c : Cause)

/-! ### The numbers (10_state.md R38) -/

/-- The six IIR values are pairwise distinct, the only property of them the rules use (R38). -/
theorem codeOf_injective : ∀ a b : Option Cause, codeOf a = codeOf b → a = b := by
  intro a b
  rcases a with _ | a <;> rcases b with _ | b <;> (try cases a) <;> (try cases b) <;> decide

/-! ### Outputs -/

/-- What the interrupt procedures append: raises and clears of this port's line, and the line follows them
(00_scope.md R10, R16). -/
def LineOutputs (s t : State) : Prop :=
  ∃ l, t.out = s.out ++ l ∧ t.irq = lineAfter s.irq l ∧ transmitted l = [] ∧
    ∀ o ∈ l, o = .raise s.params.irqLine ∨ o = .clear s.params.irqLine

theorem lineAfter_append (b : Bool) (l m : List Output) :
    lineAfter b (l ++ m) = lineAfter (lineAfter b l) m := by
  induction l generalizing b with
  | nil => rfl
  | cons o l ih => cases o <;> simp [lineAfter, ih]

theorem transmitted_append (l m : List Output) : transmitted (l ++ m) = transmitted l ++ transmitted m := by
  induction l with
  | nil => rfl
  | cons o l ih => cases o <;> simp [transmitted, ih]

variable {s} in
theorem LineOutputs.refl : LineOutputs s s := ⟨[], by simp [lineAfter, transmitted]⟩

variable {s} in
theorem LineOutputs.trans {t u : State} (hp : t.params = s.params) (h : LineOutputs s t) (h' : LineOutputs t u) :
    LineOutputs s u := by
  obtain ⟨l, h1, h2, h3, h4⟩ := h
  obtain ⟨m, k1, k2, k3, k4⟩ := h'
  refine ⟨l ++ m, by simp [k1, h1], by rw [lineAfter_append, ← h2, k2], by simp [transmitted_append, h3, k3], ?_⟩
  intro o ho
  rcases List.mem_append.1 ho with h | h
  · exact h4 o h
  · rw [← hp]; exact k4 o h

/-! ### Reports: `IIR <- code(c); IrqRaise` (60_exceptions.md R225) -/

@[simp] theorem report_iir : (report c s).iir = code c := rfl
@[simp] theorem report_irq : (report c s).irq = true := rfl
@[simp] theorem report_out : (report c s).out = s.out ++ [.raise s.params.irqLine] := rfl
@[simp] theorem report_ints : (report c s).ints = s.ints := rfl

@[simp] theorem report_lcr : (report c s).lcr = s.lcr := rfl
@[simp] theorem report_lsr : (report c s).lsr = s.lsr := rfl
@[simp] theorem report_msr : (report c s).msr = s.msr := rfl
@[simp] theorem report_mcr : (report c s).mcr = s.mcr := rfl
@[simp] theorem report_ier : (report c s).ier = s.ier := rfl
@[simp] theorem report_fcr : (report c s).fcr = s.fcr := rfl
@[simp] theorem report_dll : (report c s).dll = s.dll := rfl
@[simp] theorem report_dlh : (report c s).dlh = s.dlh := rfl
@[simp] theorem report_fifo : (report c s).fifo = s.fifo := rfl
@[simp] theorem report_response : (report c s).response = s.response := rfl
@[simp] theorem report_inputs : (report c s).inputs = s.inputs := rfl
@[simp] theorem report_params : (report c s).params = s.params := rfl
@[simp] theorem report_dlab : (report c s).dlab = s.dlab := rfl

theorem report_lineOutputs : LineOutputs s (report c s) :=
  ⟨[.raise s.params.irqLine], by simp [lineAfter, transmitted]⟩

theorem clear_lineOutputs : LineOutputs s ((s.setIir noInt).irqClear) :=
  ⟨[.clear s.params.irqLine], by simp [lineAfter, transmitted]⟩

/-! ### SignalCTI (R140) -/

/-- SignalCTI (R140): CTI becomes pending, and it is reported exactly when enabled and not outranked. -/
theorem signalCti_cases :
    (rdiEnabled s.ier = true ∧ s.iir ≠ code .rlsi ∧ s.iir ≠ code .rdi ∧
      signalCti s = report .cti (s.setInts (s.ints.insert .cti))) ∨
    ((rdiEnabled s.ier = false ∨ s.iir = code .rlsi ∨ s.iir = code .rdi) ∧
      signalCti s = s.setInts (s.ints.insert .cti)) := by
  unfold signalCti
  simp only [State.setInts_ier, State.setInts_iir]
  by_cases he : rdiEnabled s.ier = true
  · by_cases h1 : s.iir = code .rlsi <;> by_cases h2 : s.iir = code .rdi <;> simp [*]
  · simp [he]

@[simp] theorem signalCti_lcr : (signalCti s).lcr = s.lcr := by
  rcases signalCti_cases s with ⟨-, -, -, h⟩ | ⟨-, h⟩ <;> simp [h]
@[simp] theorem signalCti_lsr : (signalCti s).lsr = s.lsr := by
  rcases signalCti_cases s with ⟨-, -, -, h⟩ | ⟨-, h⟩ <;> simp [h]
@[simp] theorem signalCti_msr : (signalCti s).msr = s.msr := by
  rcases signalCti_cases s with ⟨-, -, -, h⟩ | ⟨-, h⟩ <;> simp [h]
@[simp] theorem signalCti_mcr : (signalCti s).mcr = s.mcr := by
  rcases signalCti_cases s with ⟨-, -, -, h⟩ | ⟨-, h⟩ <;> simp [h]
@[simp] theorem signalCti_ier : (signalCti s).ier = s.ier := by
  rcases signalCti_cases s with ⟨-, -, -, h⟩ | ⟨-, h⟩ <;> simp [h]
@[simp] theorem signalCti_fcr : (signalCti s).fcr = s.fcr := by
  rcases signalCti_cases s with ⟨-, -, -, h⟩ | ⟨-, h⟩ <;> simp [h]
@[simp] theorem signalCti_dll : (signalCti s).dll = s.dll := by
  rcases signalCti_cases s with ⟨-, -, -, h⟩ | ⟨-, h⟩ <;> simp [h]
@[simp] theorem signalCti_dlh : (signalCti s).dlh = s.dlh := by
  rcases signalCti_cases s with ⟨-, -, -, h⟩ | ⟨-, h⟩ <;> simp [h]
@[simp] theorem signalCti_fifo : (signalCti s).fifo = s.fifo := by
  rcases signalCti_cases s with ⟨-, -, -, h⟩ | ⟨-, h⟩ <;> simp [h]
@[simp] theorem signalCti_response : (signalCti s).response = s.response := by
  rcases signalCti_cases s with ⟨-, -, -, h⟩ | ⟨-, h⟩ <;> simp [h]
@[simp] theorem signalCti_inputs : (signalCti s).inputs = s.inputs := by
  rcases signalCti_cases s with ⟨-, -, -, h⟩ | ⟨-, h⟩ <;> simp [h]
@[simp] theorem signalCti_params : (signalCti s).params = s.params := by
  rcases signalCti_cases s with ⟨-, -, -, h⟩ | ⟨-, h⟩ <;> simp [h]
@[simp] theorem signalCti_dlab : (signalCti s).dlab = s.dlab := by
  rcases signalCti_cases s with ⟨-, -, -, h⟩ | ⟨-, h⟩ <;> simp [h]

@[simp] theorem signalCti_ints : (signalCti s).ints = s.ints.insert .cti := by
  rcases signalCti_cases s with ⟨-, -, -, h⟩ | ⟨-, h⟩ <;> simp [h]

theorem signalCti_lineOutputs : LineOutputs s (signalCti s) := by
  rcases signalCti_cases s with ⟨-, -, -, h⟩ | ⟨-, h⟩ <;> rw [h]
  · exact report_lineOutputs (s.setInts _) _
  · exact .refl

/-! ### SignalTHRI (R141) -/

/-- SignalTHRI (R141): THRI becomes pending, and it is reported exactly when enabled and IIR holds NO_INT, MSI or
THRI. -/
theorem signalThri_cases :
    (thriEnabled s.ier = true ∧ (s.iir = noInt ∨ s.iir = code .msi ∨ s.iir = code .thri) ∧
      signalThri s = report .thri (s.setInts (s.ints.insert .thri))) ∨
    ((thriEnabled s.ier = false ∨ (s.iir ≠ noInt ∧ s.iir ≠ code .msi ∧ s.iir ≠ code .thri)) ∧
      signalThri s = s.setInts (s.ints.insert .thri)) := by
  unfold signalThri
  simp only [State.setInts_ier, State.setInts_iir]
  by_cases he : thriEnabled s.ier = true
  · by_cases h1 : s.iir = noInt <;> by_cases h2 : s.iir = code .msi <;> by_cases h3 : s.iir = code .thri <;> simp [*]
  · simp [he]

@[simp] theorem signalThri_lcr : (signalThri s).lcr = s.lcr := by
  rcases signalThri_cases s with ⟨-, -, h⟩ | ⟨-, h⟩ <;> simp [h]
@[simp] theorem signalThri_lsr : (signalThri s).lsr = s.lsr := by
  rcases signalThri_cases s with ⟨-, -, h⟩ | ⟨-, h⟩ <;> simp [h]
@[simp] theorem signalThri_msr : (signalThri s).msr = s.msr := by
  rcases signalThri_cases s with ⟨-, -, h⟩ | ⟨-, h⟩ <;> simp [h]
@[simp] theorem signalThri_mcr : (signalThri s).mcr = s.mcr := by
  rcases signalThri_cases s with ⟨-, -, h⟩ | ⟨-, h⟩ <;> simp [h]
@[simp] theorem signalThri_ier : (signalThri s).ier = s.ier := by
  rcases signalThri_cases s with ⟨-, -, h⟩ | ⟨-, h⟩ <;> simp [h]
@[simp] theorem signalThri_fcr : (signalThri s).fcr = s.fcr := by
  rcases signalThri_cases s with ⟨-, -, h⟩ | ⟨-, h⟩ <;> simp [h]
@[simp] theorem signalThri_dll : (signalThri s).dll = s.dll := by
  rcases signalThri_cases s with ⟨-, -, h⟩ | ⟨-, h⟩ <;> simp [h]
@[simp] theorem signalThri_dlh : (signalThri s).dlh = s.dlh := by
  rcases signalThri_cases s with ⟨-, -, h⟩ | ⟨-, h⟩ <;> simp [h]
@[simp] theorem signalThri_fifo : (signalThri s).fifo = s.fifo := by
  rcases signalThri_cases s with ⟨-, -, h⟩ | ⟨-, h⟩ <;> simp [h]
@[simp] theorem signalThri_response : (signalThri s).response = s.response := by
  rcases signalThri_cases s with ⟨-, -, h⟩ | ⟨-, h⟩ <;> simp [h]
@[simp] theorem signalThri_inputs : (signalThri s).inputs = s.inputs := by
  rcases signalThri_cases s with ⟨-, -, h⟩ | ⟨-, h⟩ <;> simp [h]
@[simp] theorem signalThri_params : (signalThri s).params = s.params := by
  rcases signalThri_cases s with ⟨-, -, h⟩ | ⟨-, h⟩ <;> simp [h]
@[simp] theorem signalThri_dlab : (signalThri s).dlab = s.dlab := by
  rcases signalThri_cases s with ⟨-, -, h⟩ | ⟨-, h⟩ <;> simp [h]

@[simp] theorem signalThri_ints : (signalThri s).ints = s.ints.insert .thri := by
  rcases signalThri_cases s with ⟨-, -, h⟩ | ⟨-, h⟩ <;> simp [h]

theorem signalThri_lineOutputs : LineOutputs s (signalThri s) := by
  rcases signalThri_cases s with ⟨-, -, h⟩ | ⟨-, h⟩ <;> rw [h]
  · exact report_lineOutputs (s.setInts _) _
  · exact .refl

/-! ### Resolve (R142) -/

/-- Resolve (R142): exactly one of three branches runs. -/
theorem resolve_cases :
    (s.ints.cti = true ∧ rdiEnabled s.ier = true ∧ resolve s = signalCti s) ∨
    ((s.ints.cti = false ∨ rdiEnabled s.ier = false) ∧ s.ints.thri = true ∧ thriEnabled s.ier = true ∧
      resolve s = signalThri s) ∨
    ((s.ints.cti = false ∨ rdiEnabled s.ier = false) ∧ (s.ints.thri = false ∨ thriEnabled s.ier = false) ∧
      resolve s = (s.setIir noInt).irqClear) := by
  unfold resolve
  simp only [CauseSet.mem_cti, CauseSet.mem_thri]
  by_cases h1 : s.ints.cti = true <;> by_cases h2 : rdiEnabled s.ier = true <;>
    by_cases h3 : s.ints.thri = true <;> by_cases h4 : thriEnabled s.ier = true <;> simp [*]

@[simp] theorem resolve_lcr : (resolve s).lcr = s.lcr := by
  rcases resolve_cases s with ⟨-, -, h⟩ | ⟨-, -, -, h⟩ | ⟨-, -, h⟩ <;> simp [h]
@[simp] theorem resolve_lsr : (resolve s).lsr = s.lsr := by
  rcases resolve_cases s with ⟨-, -, h⟩ | ⟨-, -, -, h⟩ | ⟨-, -, h⟩ <;> simp [h]
@[simp] theorem resolve_msr : (resolve s).msr = s.msr := by
  rcases resolve_cases s with ⟨-, -, h⟩ | ⟨-, -, -, h⟩ | ⟨-, -, h⟩ <;> simp [h]
@[simp] theorem resolve_mcr : (resolve s).mcr = s.mcr := by
  rcases resolve_cases s with ⟨-, -, h⟩ | ⟨-, -, -, h⟩ | ⟨-, -, h⟩ <;> simp [h]
@[simp] theorem resolve_ier : (resolve s).ier = s.ier := by
  rcases resolve_cases s with ⟨-, -, h⟩ | ⟨-, -, -, h⟩ | ⟨-, -, h⟩ <;> simp [h]
@[simp] theorem resolve_fcr : (resolve s).fcr = s.fcr := by
  rcases resolve_cases s with ⟨-, -, h⟩ | ⟨-, -, -, h⟩ | ⟨-, -, h⟩ <;> simp [h]
@[simp] theorem resolve_dll : (resolve s).dll = s.dll := by
  rcases resolve_cases s with ⟨-, -, h⟩ | ⟨-, -, -, h⟩ | ⟨-, -, h⟩ <;> simp [h]
@[simp] theorem resolve_dlh : (resolve s).dlh = s.dlh := by
  rcases resolve_cases s with ⟨-, -, h⟩ | ⟨-, -, -, h⟩ | ⟨-, -, h⟩ <;> simp [h]
@[simp] theorem resolve_fifo : (resolve s).fifo = s.fifo := by
  rcases resolve_cases s with ⟨-, -, h⟩ | ⟨-, -, -, h⟩ | ⟨-, -, h⟩ <;> simp [h]
@[simp] theorem resolve_response : (resolve s).response = s.response := by
  rcases resolve_cases s with ⟨-, -, h⟩ | ⟨-, -, -, h⟩ | ⟨-, -, h⟩ <;> simp [h]
@[simp] theorem resolve_inputs : (resolve s).inputs = s.inputs := by
  rcases resolve_cases s with ⟨-, -, h⟩ | ⟨-, -, -, h⟩ | ⟨-, -, h⟩ <;> simp [h]
@[simp] theorem resolve_params : (resolve s).params = s.params := by
  rcases resolve_cases s with ⟨-, -, h⟩ | ⟨-, -, -, h⟩ | ⟨-, -, h⟩ <;> simp [h]
@[simp] theorem resolve_dlab : (resolve s).dlab = s.dlab := by
  rcases resolve_cases s with ⟨-, -, h⟩ | ⟨-, -, -, h⟩ | ⟨-, -, h⟩ <;> simp [h]

/-- Resolve neither adds a pending cause nor removes one (R142, corner c). -/
@[simp] theorem resolve_ints : (resolve s).ints = s.ints := by
  rcases resolve_cases s with ⟨h1, -, h⟩ | ⟨-, h1, -, h⟩ | ⟨-, -, h⟩
  · simp [h, CauseSet.insert, ← h1]
  · simp [h, CauseSet.insert, ← h1]
  · simp [h]

theorem resolve_lineOutputs : LineOutputs s (resolve s) := by
  rcases resolve_cases s with ⟨-, -, h⟩ | ⟨-, -, -, h⟩ | ⟨-, -, h⟩ <;> rw [h]
  · exact signalCti_lineOutputs s
  · exact signalThri_lineOutputs s
  · exact clear_lineOutputs s

/-! ### Acknowledge (R143) -/

/-- Acknowledge (R143): the cause leaves `ints`, IIR becomes NO_INT, and Resolve runs exactly when the cause was the
reported one. -/
theorem acknowledge_cases :
    (s.iir = code c ∧ acknowledge c s = resolve ((s.setInts (s.ints.erase c)).setIir noInt)) ∨
    (s.iir ≠ code c ∧ acknowledge c s = (s.setInts (s.ints.erase c)).setIir noInt) := by
  unfold acknowledge
  by_cases h : s.iir = code c <;> simp [h]

@[simp] theorem acknowledge_lcr : (acknowledge c s).lcr = s.lcr := by
  rcases acknowledge_cases s c with ⟨-, h⟩ | ⟨-, h⟩ <;> simp [h]
@[simp] theorem acknowledge_lsr : (acknowledge c s).lsr = s.lsr := by
  rcases acknowledge_cases s c with ⟨-, h⟩ | ⟨-, h⟩ <;> simp [h]
@[simp] theorem acknowledge_msr : (acknowledge c s).msr = s.msr := by
  rcases acknowledge_cases s c with ⟨-, h⟩ | ⟨-, h⟩ <;> simp [h]
@[simp] theorem acknowledge_mcr : (acknowledge c s).mcr = s.mcr := by
  rcases acknowledge_cases s c with ⟨-, h⟩ | ⟨-, h⟩ <;> simp [h]
@[simp] theorem acknowledge_ier : (acknowledge c s).ier = s.ier := by
  rcases acknowledge_cases s c with ⟨-, h⟩ | ⟨-, h⟩ <;> simp [h]
@[simp] theorem acknowledge_fcr : (acknowledge c s).fcr = s.fcr := by
  rcases acknowledge_cases s c with ⟨-, h⟩ | ⟨-, h⟩ <;> simp [h]
@[simp] theorem acknowledge_dll : (acknowledge c s).dll = s.dll := by
  rcases acknowledge_cases s c with ⟨-, h⟩ | ⟨-, h⟩ <;> simp [h]
@[simp] theorem acknowledge_dlh : (acknowledge c s).dlh = s.dlh := by
  rcases acknowledge_cases s c with ⟨-, h⟩ | ⟨-, h⟩ <;> simp [h]
@[simp] theorem acknowledge_fifo : (acknowledge c s).fifo = s.fifo := by
  rcases acknowledge_cases s c with ⟨-, h⟩ | ⟨-, h⟩ <;> simp [h]
@[simp] theorem acknowledge_response : (acknowledge c s).response = s.response := by
  rcases acknowledge_cases s c with ⟨-, h⟩ | ⟨-, h⟩ <;> simp [h]
@[simp] theorem acknowledge_inputs : (acknowledge c s).inputs = s.inputs := by
  rcases acknowledge_cases s c with ⟨-, h⟩ | ⟨-, h⟩ <;> simp [h]
@[simp] theorem acknowledge_params : (acknowledge c s).params = s.params := by
  rcases acknowledge_cases s c with ⟨-, h⟩ | ⟨-, h⟩ <;> simp [h]
@[simp] theorem acknowledge_dlab : (acknowledge c s).dlab = s.dlab := by
  rcases acknowledge_cases s c with ⟨-, h⟩ | ⟨-, h⟩ <;> simp [h]

@[simp] theorem acknowledge_ints : (acknowledge c s).ints = s.ints.erase c := by
  rcases acknowledge_cases s c with ⟨-, h⟩ | ⟨-, h⟩ <;> simp [h]

theorem acknowledge_lineOutputs : LineOutputs s (acknowledge c s) := by
  rcases acknowledge_cases s c with ⟨-, h⟩ | ⟨-, h⟩ <;> rw [h]
  · exact resolve_lineOutputs ((s.setInts _).setIir _)
  · exact .refl

/-! ### the JOINT acknowledgement (R144) -/

/-- The JOINT acknowledgement (R144): Resolve runs exactly when RDI or CTI was reported. -/
theorem acknowledgeJoint_cases :
    ((s.iir = code .rdi ∨ s.iir = code .cti) ∧
      acknowledgeJoint s = resolve ((s.setInts ((s.ints.erase .rdi).erase .cti)).setIir noInt)) ∨
    ((s.iir ≠ code .rdi ∧ s.iir ≠ code .cti) ∧
      acknowledgeJoint s = (s.setInts ((s.ints.erase .rdi).erase .cti)).setIir noInt) := by
  unfold acknowledgeJoint
  by_cases h1 : s.iir = code .rdi <;> by_cases h2 : s.iir = code .cti <;> simp [*]

@[simp] theorem acknowledgeJoint_lcr : (acknowledgeJoint s).lcr = s.lcr := by
  rcases acknowledgeJoint_cases s with ⟨-, h⟩ | ⟨-, h⟩ <;> simp [h]
@[simp] theorem acknowledgeJoint_lsr : (acknowledgeJoint s).lsr = s.lsr := by
  rcases acknowledgeJoint_cases s with ⟨-, h⟩ | ⟨-, h⟩ <;> simp [h]
@[simp] theorem acknowledgeJoint_msr : (acknowledgeJoint s).msr = s.msr := by
  rcases acknowledgeJoint_cases s with ⟨-, h⟩ | ⟨-, h⟩ <;> simp [h]
@[simp] theorem acknowledgeJoint_mcr : (acknowledgeJoint s).mcr = s.mcr := by
  rcases acknowledgeJoint_cases s with ⟨-, h⟩ | ⟨-, h⟩ <;> simp [h]
@[simp] theorem acknowledgeJoint_ier : (acknowledgeJoint s).ier = s.ier := by
  rcases acknowledgeJoint_cases s with ⟨-, h⟩ | ⟨-, h⟩ <;> simp [h]
@[simp] theorem acknowledgeJoint_fcr : (acknowledgeJoint s).fcr = s.fcr := by
  rcases acknowledgeJoint_cases s with ⟨-, h⟩ | ⟨-, h⟩ <;> simp [h]
@[simp] theorem acknowledgeJoint_dll : (acknowledgeJoint s).dll = s.dll := by
  rcases acknowledgeJoint_cases s with ⟨-, h⟩ | ⟨-, h⟩ <;> simp [h]
@[simp] theorem acknowledgeJoint_dlh : (acknowledgeJoint s).dlh = s.dlh := by
  rcases acknowledgeJoint_cases s with ⟨-, h⟩ | ⟨-, h⟩ <;> simp [h]
@[simp] theorem acknowledgeJoint_fifo : (acknowledgeJoint s).fifo = s.fifo := by
  rcases acknowledgeJoint_cases s with ⟨-, h⟩ | ⟨-, h⟩ <;> simp [h]
@[simp] theorem acknowledgeJoint_response : (acknowledgeJoint s).response = s.response := by
  rcases acknowledgeJoint_cases s with ⟨-, h⟩ | ⟨-, h⟩ <;> simp [h]
@[simp] theorem acknowledgeJoint_inputs : (acknowledgeJoint s).inputs = s.inputs := by
  rcases acknowledgeJoint_cases s with ⟨-, h⟩ | ⟨-, h⟩ <;> simp [h]
@[simp] theorem acknowledgeJoint_params : (acknowledgeJoint s).params = s.params := by
  rcases acknowledgeJoint_cases s with ⟨-, h⟩ | ⟨-, h⟩ <;> simp [h]
@[simp] theorem acknowledgeJoint_dlab : (acknowledgeJoint s).dlab = s.dlab := by
  rcases acknowledgeJoint_cases s with ⟨-, h⟩ | ⟨-, h⟩ <;> simp [h]

@[simp] theorem acknowledgeJoint_ints : (acknowledgeJoint s).ints = (s.ints.erase .rdi).erase .cti := by
  rcases acknowledgeJoint_cases s with ⟨-, h⟩ | ⟨-, h⟩ <;> simp [h]

theorem acknowledgeJoint_lineOutputs : LineOutputs s (acknowledgeJoint s) := by
  rcases acknowledgeJoint_cases s with ⟨-, h⟩ | ⟨-, h⟩ <;> rw [h]
  · exact resolve_lineOutputs ((s.setInts _).setIir _)
  · exact .refl

/-! ### AcknowledgeRBR (R144) -/

@[simp] theorem acknowledgeRbr_lcr : (acknowledgeRbr s).lcr = s.lcr := by
  unfold acknowledgeRbr; split <;> simp
@[simp] theorem acknowledgeRbr_lsr : (acknowledgeRbr s).lsr = s.lsr := by
  unfold acknowledgeRbr; split <;> simp
@[simp] theorem acknowledgeRbr_msr : (acknowledgeRbr s).msr = s.msr := by
  unfold acknowledgeRbr; split <;> simp
@[simp] theorem acknowledgeRbr_mcr : (acknowledgeRbr s).mcr = s.mcr := by
  unfold acknowledgeRbr; split <;> simp
@[simp] theorem acknowledgeRbr_ier : (acknowledgeRbr s).ier = s.ier := by
  unfold acknowledgeRbr; split <;> simp
@[simp] theorem acknowledgeRbr_fcr : (acknowledgeRbr s).fcr = s.fcr := by
  unfold acknowledgeRbr; split <;> simp
@[simp] theorem acknowledgeRbr_dll : (acknowledgeRbr s).dll = s.dll := by
  unfold acknowledgeRbr; split <;> simp
@[simp] theorem acknowledgeRbr_dlh : (acknowledgeRbr s).dlh = s.dlh := by
  unfold acknowledgeRbr; split <;> simp
@[simp] theorem acknowledgeRbr_fifo : (acknowledgeRbr s).fifo = s.fifo := by
  unfold acknowledgeRbr; split <;> simp
@[simp] theorem acknowledgeRbr_response : (acknowledgeRbr s).response = s.response := by
  unfold acknowledgeRbr; split <;> simp
@[simp] theorem acknowledgeRbr_inputs : (acknowledgeRbr s).inputs = s.inputs := by
  unfold acknowledgeRbr; split <;> simp
@[simp] theorem acknowledgeRbr_params : (acknowledgeRbr s).params = s.params := by
  unfold acknowledgeRbr; split <;> simp
@[simp] theorem acknowledgeRbr_dlab : (acknowledgeRbr s).dlab = s.dlab := by
  unfold acknowledgeRbr; split <;> simp

/-- In every mode the read of address 0 removes RDI and CTI from `ints` and nothing else (R144). -/
@[simp] theorem acknowledgeRbr_ints : (acknowledgeRbr s).ints = (s.ints.erase .rdi).erase .cti := by
  unfold acknowledgeRbr
  split <;> simp [CauseSet.erase]

theorem acknowledgeRbr_lineOutputs : LineOutputs s (acknowledgeRbr s) := by
  unfold acknowledgeRbr
  split
  · exact .trans (by simp) (acknowledge_lineOutputs s .rdi) (acknowledge_lineOutputs _ .cti)
  · exact .trans (by simp) (acknowledge_lineOutputs s .cti) (acknowledge_lineOutputs _ .rdi)
  · exact acknowledgeJoint_lineOutputs s

/-! ### What the procedures leave alone, as one equation -/

/-- The interrupt procedures write `ints`, `iir`, `irq` and `out` and nothing else (41_interrupt_state_machine.md). -/
def InterruptFrame (s t : State) : Prop :=
  t = { s with ints := t.ints, iir := t.iir, irq := t.irq, out := t.out }

variable {s} in
theorem InterruptFrame.of_fields {t : State} (h1 : t.lcr = s.lcr) (h2 : t.lsr = s.lsr) (h3 : t.msr = s.msr)
    (h4 : t.mcr = s.mcr) (h5 : t.ier = s.ier) (h6 : t.fcr = s.fcr) (h7 : t.dll = s.dll) (h8 : t.dlh = s.dlh)
    (h9 : t.fifo = s.fifo) (h10 : t.response = s.response) (h11 : t.inputs = s.inputs)
    (h12 : t.params = s.params) : InterruptFrame s t := by
  cases s; cases t; simp_all [InterruptFrame]

theorem signalCti_frame : InterruptFrame s (signalCti s) := by apply InterruptFrame.of_fields <;> simp
theorem signalThri_frame : InterruptFrame s (signalThri s) := by apply InterruptFrame.of_fields <;> simp
theorem resolve_frame : InterruptFrame s (resolve s) := by apply InterruptFrame.of_fields <;> simp
theorem acknowledge_frame : InterruptFrame s (acknowledge c s) := by apply InterruptFrame.of_fields <;> simp
theorem acknowledgeRbr_frame : InterruptFrame s (acknowledgeRbr s) := by apply InterruptFrame.of_fields <;> simp

/-! ### Which codes IIR can take (10_state.md R32) -/

/-- From NO_INT, Resolve leaves NO_INT, CTI or THRI. -/
theorem resolve_iir_of_noInt (h : s.iir = noInt) :
    (resolve s).iir = noInt ∨ (resolve s).iir = code .cti ∨ (resolve s).iir = code .thri := by
  rcases resolve_cases s with ⟨-, -, h'⟩ | ⟨-, -, -, h'⟩ | ⟨-, -, h'⟩ <;> rw [h']
  · rcases signalCti_cases s with ⟨-, -, -, h3⟩ | ⟨-, h3⟩ <;> rw [h3] <;> simp [h]
  · rcases signalThri_cases s with ⟨-, -, h3⟩ | ⟨-, h3⟩ <;> rw [h3] <;> simp [h]
  · simp

theorem acknowledge_iir :
    (acknowledge c s).iir = noInt ∨ (acknowledge c s).iir = code .cti ∨ (acknowledge c s).iir = code .thri := by
  rcases acknowledge_cases s c with ⟨-, h⟩ | ⟨-, h⟩ <;> rw [h]
  · exact resolve_iir_of_noInt _ rfl
  · simp

/-- After the acknowledgement of a read of address 0, IIR holds NO_INT, CTI or THRI, whatever it held before. -/
theorem acknowledgeRbr_iir :
    (acknowledgeRbr s).iir = noInt ∨ (acknowledgeRbr s).iir = code .cti ∨ (acknowledgeRbr s).iir = code .thri := by
  unfold acknowledgeRbr
  split
  · exact acknowledge_iir _ _
  · exact acknowledge_iir _ _
  · rcases acknowledgeJoint_cases s with ⟨-, h⟩ | ⟨-, h⟩ <;> rw [h]
    · exact resolve_iir_of_noInt _ rfl
    · simp

/-! ### The receive buffer (42_register_reads.md R160) -/

/-- The byte a read of address 0 returns: the head of the FIFO, or the idle value (R160). -/
theorem receiveByte_eq (h : s.fifo.Wf) : receiveByte s = s.fifo.seq.head?.getD s.params.rbrIdle := by
  unfold receiveByte
  split
  · rename_i he
    rw [Queue.seq_eq_nil.2 (Queue.isEmpty_iff.1 he)]
    rfl
  · rw [(Queue.popFront_spec h).2.1]

/-- The FIFO after a read of address 0: the rest of the bytes, well stored (R160). -/
theorem dropReceived_spec (h : s.fifo.Wf) :
    (dropReceived s).fifo.Wf ∧ (dropReceived s).fifo.seq = s.fifo.seq.tail := by
  unfold dropReceived
  split
  · rename_i he
    rw [Queue.seq_eq_nil.2 (Queue.isEmpty_iff.1 he)]
    exact ⟨h, rfl⟩
  · exact ⟨(Queue.popFront_spec h).1, (Queue.popFront_spec h).2.2⟩

theorem dropReceived_eq : dropReceived s = s.setFifo (dropReceived s).fifo := by
  unfold dropReceived
  split <;> rfl

/-- After the pop: bytes left set DR and signal CTI, none left clears DR (R160). -/
theorem announceRemaining_cases :
    (s.fifo.len ≠ 0 ∧ announceRemaining s = signalCti (setDataReady s)) ∨
    (s.fifo.len = 0 ∧ announceRemaining s = clearDataReady s) := by
  unfold announceRemaining
  by_cases h : s.fifo.len = 0 <;> simp [Queue.isEmpty, h]

/-! ### One step (20_memory.md R73) -/

/-- Taking the next event: it is the head of the requests, decoded under DLAB as it stands (30_encoding.md R94). -/
theorem nextEvent_ok {i : Instr} {t : State} (h : nextEvent s = .ok (i, t)) :
    ∃ r rest, s.inputs = r :: rest ∧ decodeRequest s.dlab r = .ok i ∧ t = s.setInputs rest := by
  unfold nextEvent at h
  split at h
  · cases h
  · rename_i r rest hr
    split at h
    · cases h
    · rename_i j hj
      cases h
      exact ⟨r, rest, hr, hj, rfl⟩

/-- A step to a next state is the execution of one decoded event. -/
theorem step_next {t : State} (h : step s = .next t) :
    ∃ r rest i, s.inputs = r :: rest ∧ decodeRequest s.dlab r = .ok i ∧ exec i (s.setInputs rest) = .next t := by
  unfold step at h
  split at h
  · cases h
  · rename_i i u hu
    obtain ⟨r, rest, h1, h2, rfl⟩ := nextEvent_ok s hu
    exact ⟨r, rest, i, h1, h2, h⟩

/-- An access to an unsupported address faults, or under `ERROR_RETURN` answers an error and changes nothing else
(60_exceptions.md R211). -/
theorem unsupportedRegister_cases (d : Dir) (a : Nat) :
    (s.params.unsupportedMode = .fault ∧ unsupportedRegister d a s = .fault (.unsupportedRegister d a)) ∨
    (s.params.unsupportedMode = .errorReturn ∧ unsupportedRegister d a s = .next (s.respond (.error d a))) := by
  unfold unsupportedRegister answer
  split <;> simp [*]

end Sys2Proof.Machine
end

