-- ==== Sys2Proof/Laws/PerInstr.lean ====
section
/-! SUPPORT. Per-instruction laws about the encoding as syntax. Family `FieldsOfWord`: the canonical word of an event
has KIND at most 4, the reserved bit 0, and the KIND of its row (30_encoding.md R91, R92, R100). -/

namespace Sys2Proof.Laws.FieldsOfWord

/-- The KIND of an event's row (R92, R100). -/
def kindOf : Instr → BitVec 4
  | .rdRbr | .rdDll | .rdIer | .rdDlh | .rdIir | .rdLcr | .rdA4 | .rdLsr | .rdMsr => 0x0#4
  | .rdA7 _ => 0x0#4
  | .wrThr _ | .wrDll _ | .wrIer _ | .wrDlh _ | .wrFcr _ | .wrLcr _ | .wrMcr _ | .wrA5 _ | .wrA6 _ => 0x1#4
  | .wrA7 _ _ => 0x1#4
  | .rx _ => 0x2#4
  | .rst => 0x3#4
  | .qrst => 0x4#4

/-- What the family says of an event: its canonical word has the KIND of its row and the reserved bit clear. -/
def Statement (i : Instr) : Prop := kindField (encode i) = kindOf i ∧ zField (encode i) = 0#1

theorem rdRbr : Statement .rdRbr := ⟨kindField_mkWord _ _ _, zField_mkWord _ _ _⟩
theorem rdDll : Statement .rdDll := ⟨kindField_mkWord _ _ _, zField_mkWord _ _ _⟩
theorem rdIer : Statement .rdIer := ⟨kindField_mkWord _ _ _, zField_mkWord _ _ _⟩
theorem rdDlh : Statement .rdDlh := ⟨kindField_mkWord _ _ _, zField_mkWord _ _ _⟩
theorem rdIir : Statement .rdIir := ⟨kindField_mkWord _ _ _, zField_mkWord _ _ _⟩
theorem rdLcr : Statement .rdLcr := ⟨kindField_mkWord _ _ _, zField_mkWord _ _ _⟩
theorem rdA4 : Statement .rdA4 := ⟨kindField_mkWord _ _ _, zField_mkWord _ _ _⟩
theorem rdLsr : Statement .rdLsr := ⟨kindField_mkWord _ _ _, zField_mkWord _ _ _⟩
theorem rdMsr : Statement .rdMsr := ⟨kindField_mkWord _ _ _, zField_mkWord _ _ _⟩
theorem rdA7 (a : Nat) : Statement (.rdA7 a) := ⟨kindField_mkWord _ _ _, zField_mkWord _ _ _⟩
theorem wrThr (v : Byte) : Statement (.wrThr v) := ⟨kindField_mkWord _ _ _, zField_mkWord _ _ _⟩
theorem wrDll (v : Byte) : Statement (.wrDll v) := ⟨kindField_mkWord _ _ _, zField_mkWord _ _ _⟩
theorem wrIer (v : Byte) : Statement (.wrIer v) := ⟨kindField_mkWord _ _ _, zField_mkWord _ _ _⟩
theorem wrDlh (v : Byte) : Statement (.wrDlh v) := ⟨kindField_mkWord _ _ _, zField_mkWord _ _ _⟩
theorem wrFcr (v : Byte) : Statement (.wrFcr v) := ⟨kindField_mkWord _ _ _, zField_mkWord _ _ _⟩
theorem wrLcr (v : Byte) : Statement (.wrLcr v) := ⟨kindField_mkWord _ _ _, zField_mkWord _ _ _⟩
theorem wrMcr (v : Byte) : Statement (.wrMcr v) := ⟨kindField_mkWord _ _ _, zField_mkWord _ _ _⟩
theorem wrA5 (v : Byte) : Statement (.wrA5 v) := ⟨kindField_mkWord _ _ _, zField_mkWord _ _ _⟩
theorem wrA6 (v : Byte) : Statement (.wrA6 v) := ⟨kindField_mkWord _ _ _, zField_mkWord _ _ _⟩
theorem wrA7 (a : Nat) (v : Byte) : Statement (.wrA7 a v) := ⟨kindField_mkWord _ _ _, zField_mkWord _ _ _⟩
theorem rx (b : Byte) : Statement (.rx b) := ⟨kindField_mkWord _ _ _, zField_mkWord _ _ _⟩
theorem rst : Statement .rst := ⟨kindField_mkWord _ _ _, zField_mkWord _ _ _⟩
theorem qrst : Statement .qrst := ⟨kindField_mkWord _ _ _, zField_mkWord _ _ _⟩

end Sys2Proof.Laws.FieldsOfWord
end

