-- ==== Sys2Proof/Laws/Ports.lean ====
section
/-! SUPPORT. What a step through the ports does (00_scope.md R13), where the registers sit (20_memory.md R62), and what
one more step of a safe run asks (60_exceptions.md R211). -/

namespace Sys2Proof.Machine

variable (s : State)

/-! ### The queue of requests -/

@[simp] theorem State.setInputs_setInputs (r r' : List Request) : (s.setInputs r).setInputs r' = s.setInputs r' := rfl

@[simp] theorem State.setInputs_self : s.setInputs s.inputs = s := rfl

/-- A request presented before the others runs its event at the state as it is. -/
theorem step_presented {r : Request} {i : Instr} (h : decodeRequest s.dlab r = .ok i) :
    step (s.setInputs (r :: s.inputs)) = exec i s := by
  simp [step, nextEvent, h]

/-! ### The ports -/

variable {p : PortsIn}

/-- With a request at the strobes, a step runs its event (R13). -/
theorem portStep_request {r : Request} {i : Instr} (hp : p.request = some r) (h : decodeRequest s.dlab r = .ok i) :
    portStep p s = exec i s := by
  rw [← step_presented s h]
  simp [portStep, hp]

/-- Without a request, a step changes nothing (R13; log entry 20). -/
theorem portStep_none (hp : p.request = none) : portStep p s = .next s := by simp [portStep, hp]

/-- Without a request, the ports are quiet, whatever an earlier event answered (R13). -/
theorem portsOut_none (hp : p.request = none) (o : Result) : portsOut p s o = quietPorts s.irq := by
  simp [portsOut, hp]

theorem portsOut_next {r : Request} (hp : p.request = some r) (t : State) :
    portsOut p s (.next t) = eventPorts s t := by simp [portsOut, hp]

theorem portsOut_fault {r : Request} (hp : p.request = some r) (f : Fault) :
    portsOut p s (.fault f) = { quietPorts s.irq with fault := true } := by simp [portsOut, hp]

/-! ### Where the registers sit -/

/-- A system address is a register address of the block exactly when it is the base plus it (R62). -/
theorem registerAddr_eq_some (q : Params) (sys a : Nat) : registerAddr q sys = some a ↔ sys = systemAddr q a := by
  unfold registerAddr systemAddr
  split <;> simp <;> omega

/-! ### Runs -/

/-- A safe run of one more step: the step meets no UnsupportedRegister, and the rest is safe (R211). -/
theorem safeRun_next {k : Nat} {t : State} (h : step s = .next t) :
    safeRun (k + 1) s ↔ t.response.isError = false ∧ safeRun k t := by simp [safeRun, h]

theorem safeRun_fault {k : Nat} {f : Fault} (h : step s = .fault f) : ¬ safeRun (k + 1) s := by simp [safeRun, h]

/-- A safe run meets no fault. -/
theorem safeRun_faultFree (k : Nat) : safeRun k s → faultFreeRun k s := by
  induction k generalizing s with
  | zero => exact fun _ => trivial
  | succ k ih =>
    intro h
    unfold safeRun at h
    unfold faultFreeRun
    split at h
    · exact ih _ h.2
    · exact h.elim
    · trivial

end Sys2Proof.Machine
end

