-- ==== Sys2Proof/Tests/Slice0.lean ====
section
/-! SUPPORT. The model's own tests. Expected values are the words of 30_encoding.md R91 to R103, written out bit by
bit, and the vectors V1 to V62 of 95_test_vectors.md, each named beside its theorem; and one witness for every
obligation with hypotheses, at the boundary values of its clauses. -/

namespace Sys2Proof.Tests

open Sys2Proof Sys2Proof.Machine

/-! ### Small states -/

/-- S0 of 95_test_vectors.md with a definite configuration, so that a test can compute. -/
def s0 : State :=
  { State.reset with params :=
      { irqLine := 4, rbrIdle := 0xEE#8, rbrAckMode := .seqRdiCti, unsupportedMode := .fault, uartBase := 0x96000000 } }

/-- S0 under `UNSUPPORTED_MODE = ERROR_RETURN`. -/
def s0Err : State := { s0 with params := { s0.params with unsupportedMode := .errorReturn } }

/-- A queue that holds the bytes `l`, pushed in order. -/
def queueOf (l : List Byte) : Queue := l.foldl Queue.pushBack Queue.new

/-- `s` with the pending causes, IER, IIR and line of a vector `(ints, IER, IIR, irq)`. -/
def withIrq (s : State) (cti thri : Bool) (ier iir : Byte) (irq : Bool) : State :=
  { s with ints := { CauseSet.empty with cti := cti, thri := thri }, ier := ier, iir := iir, irq := irq }

/-- `s` with the acknowledgement mode `m`. -/
def withAck (s : State) (m : AckMode) : State := { s with params := { s.params with rbrAckMode := m } }

/-- The state Ta of section 2.3, with no output recorded. -/
def ta : State := { withIrq s0 true false 0x01#8 0x0C#8 true with fifo := queueOf [0x41#8], lsr := 0x61#8 }

/-- The state Tb. -/
def tb : State := { ta with fifo := queueOf [0x41#8, 0x42#8] }

/-- The state Tc. -/
def tc : State := { withIrq s0 true true 0x03#8 0x0C#8 true with fifo := queueOf [0x0A#8], lsr := 0x61#8 }

/-- The state of an event that completes (`s0` where it stops). -/
def after (r : Result) : State :=
  match r with
  | .next t => t
  | .fault _ => s0
  | .refused _ => s0

/-- What a vector of sections 2.2 to 2.6 compares. -/
structure View where
  cti : Bool
  thri : Bool
  iir : Byte
  irq : Bool
  out : List Output
  deriving DecidableEq, Repr

/-- The vector's `(ints, IIR, irq)` and the outputs. -/
def view (s : State) : View := ⟨s.ints.cti, s.ints.thri, s.iir, s.irq, s.out⟩

/-! ### Well-formedness: rows RD.A7 and WR.A7 stand for addresses 7 and above only (R101) -/

theorem test_wf_refuses_rdA7_6 : (Instr.rdA7 6).wf = false := by decide
theorem test_wf_refuses_wrA7_3 : (Instr.wrA7 3 0x5A#8).wf = false := by decide
theorem test_wf_accepts_7 : (Instr.rdA7 7).wf = true ∧ (Instr.wrA7 7 0x5A#8).wf = true := by decide
theorem test_hasWord_refuses_8 : (Instr.rdA7 8).hasWord = false ∧ (Instr.wrA7 8 0#8).hasWord = false := by decide
theorem test_admits_refuses_dlab : Instr.rdRbr.admits true = false ∧ Instr.rdDll.admits false = false ∧
    (Instr.wrIer 0#8).admits true = false ∧ (Instr.wrDlh 0#8).admits false = false := by decide

/-! ### Decoding: KIND, Z, A, D written out (R91, R92, R100) -/

theorem test_decode_rdRbr : decodeWord false (0b0000#4 ++ 0b0#1 ++ 0b000#3 ++ 0b00000000#8) = .ok .rdRbr := by decide
theorem test_decode_rdDll : decodeWord true (0b0000#4 ++ 0b0#1 ++ 0b000#3 ++ 0b00000000#8) = .ok .rdDll := by decide
theorem test_decode_rdIer : decodeWord false (0b0000#4 ++ 0b0#1 ++ 0b001#3 ++ 0b00000000#8) = .ok .rdIer := by decide
theorem test_decode_rdDlh : decodeWord true (0b0000#4 ++ 0b0#1 ++ 0b001#3 ++ 0b00000000#8) = .ok .rdDlh := by decide
theorem test_decode_rdIir : decodeWord true (0b0000#4 ++ 0b0#1 ++ 0b010#3 ++ 0b00000000#8) = .ok .rdIir := by decide
theorem test_decode_rdLcr : decodeWord true (0b0000#4 ++ 0b0#1 ++ 0b011#3 ++ 0b00000000#8) = .ok .rdLcr := by decide
theorem test_decode_rdA4 : decodeWord false (0b0000#4 ++ 0b0#1 ++ 0b100#3 ++ 0b00000000#8) = .ok .rdA4 := by decide
theorem test_decode_rdLsr : decodeWord false (0b0000#4 ++ 0b0#1 ++ 0b101#3 ++ 0b00000000#8) = .ok .rdLsr := by decide
theorem test_decode_rdMsr : decodeWord true (0b0000#4 ++ 0b0#1 ++ 0b110#3 ++ 0b00000000#8) = .ok .rdMsr := by decide
theorem test_decode_rdA7 : decodeWord false (0b0000#4 ++ 0b0#1 ++ 0b111#3 ++ 0b00000000#8) = .ok (.rdA7 7) := by decide
theorem test_decode_wrThr : decodeWord false (0b0001#4 ++ 0b0#1 ++ 0b000#3 ++ 0b01000010#8) = .ok (.wrThr 0x42#8) := by
  decide
theorem test_decode_wrDll : decodeWord true (0b0001#4 ++ 0b0#1 ++ 0b000#3 ++ 0b00001100#8) = .ok (.wrDll 0x0C#8) := by
  decide
theorem test_decode_wrIer : decodeWord false (0b0001#4 ++ 0b0#1 ++ 0b001#3 ++ 0b11110101#8) = .ok (.wrIer 0xF5#8) := by
  decide
theorem test_decode_wrDlh : decodeWord true (0b0001#4 ++ 0b0#1 ++ 0b001#3 ++ 0b10101011#8) = .ok (.wrDlh 0xAB#8) := by
  decide
theorem test_decode_wrFcr : decodeWord true (0b0001#4 ++ 0b0#1 ++ 0b010#3 ++ 0b11000111#8) = .ok (.wrFcr 0xC7#8) := by
  decide
theorem test_decode_wrLcr : decodeWord false (0b0001#4 ++ 0b0#1 ++ 0b011#3 ++ 0b10000011#8) = .ok (.wrLcr 0x83#8) := by
  decide
theorem test_decode_wrMcr : decodeWord true (0b0001#4 ++ 0b0#1 ++ 0b100#3 ++ 0b00011011#8) = .ok (.wrMcr 0x1B#8) := by
  decide
theorem test_decode_wrA5 : decodeWord false (0b0001#4 ++ 0b0#1 ++ 0b101#3 ++ 0b00000000#8) = .ok (.wrA5 0x00#8) := by
  decide
theorem test_decode_wrA6 : decodeWord false (0b0001#4 ++ 0b0#1 ++ 0b110#3 ++ 0b00000001#8) = .ok (.wrA6 0x01#8) := by
  decide
theorem test_decode_wrA7 : decodeWord true (0b0001#4 ++ 0b0#1 ++ 0b111#3 ++ 0b01011010#8) = .ok (.wrA7 7 0x5A#8) := by
  decide
theorem test_decode_rx : decodeWord true (0b0010#4 ++ 0b0#1 ++ 0b000#3 ++ 0b01000001#8) = .ok (.rx 0x41#8) := by decide
theorem test_decode_rst : decodeWord false (0b0011#4 ++ 0b0#1 ++ 0b000#3 ++ 0b00000000#8) = .ok .rst := by decide
theorem test_decode_qrst : decodeWord true (0b0100#4 ++ 0b0#1 ++ 0b000#3 ++ 0b00000000#8) = .ok .qrst := by decide

/-- Words that spell no event, one for each reason of R103. -/
theorem test_decode_refuses : decodeWord false 0x5000#16 = .error (.badKind 0x5000#16) ∧
    decodeWord true 0x0800#16 = .error (.reservedBit 0x0800#16) ∧
    decodeWord false 0x2141#16 = .error (.strayAddress 0x2141#16) ∧
    decodeWord false 0x3001#16 = .error (.strayData 0x3001#16) ∧
    decodeRequest false (.read 2 0) = .error (.badWidth 2) := by decide

/-- A received integer is masked: `RX 0x141` stores 0x41 (V54, D16). -/
theorem test_receive_masks : decodeRequest false (.receive 0x141) = .ok (.rx 0x41#8) := by decide

/-- Table words: bit 16 is DLAB (R94); a bit above the key is no instruction. -/
theorem test_tableWord : decodeTableWord 24 0x11000 = some (.wrDll 0x00#8) ∧
    decodeTableWord 24 0x01000 = some (.wrThr 0x00#8) ∧ decodeTableWord 24 0x20000 = none := by decide

/-- The assembler's names are numbers (R112). -/
theorem test_assembler : assembleWrite .thr 0x42#8 = some 0x1042#16 ∧ assembleRead .dlh = some 0x0100#16 ∧
    assembleRead .mcr = none := by decide

/-! ### Fetching -/

/-- The first step after reset runs the presented instruction, under the DLAB of its key (R94). -/
theorem test_fetchWord : (after (step (s0.withFetchWord 24 0x1100C))).dll = 0x0C#8 ∧
    (after (step (s0.withFetchWord 24 0x1110C))).dlh = 0x0C#8 ∧
    (after (step (s0.withFetchWord 24 0x0110C))).ier = 0x0C#8 := by decide

/-! ### Register reads -/

/-- V26: the empty buffer answers IDLE. -/
theorem test_rdRbr_empty : after (exec .rdRbr s0) = { s0 with response := .byte 0xEE#8 } := by decide
/-- V23 to V25, state Ta and Tb: the outputs by mode, and the rest the same. -/
theorem test_rdRbr_ta : view (after (exec .rdRbr ta)) = ⟨false, false, 0x01#8, true, []⟩ ∧
    view (after (exec .rdRbr (withAck ta .seqCtiRdi))) = ⟨false, false, 0x01#8, false, [.clear 4]⟩ ∧
    view (after (exec .rdRbr (withAck tb .joint))) = ⟨true, false, 0x0C#8, true, [.clear 4, .raise 4]⟩ ∧
    (after (exec .rdRbr tb)).fifo.seq = [0x42#8] ∧ (after (exec .rdRbr tb)).lsr = 0x61#8 := by decide
/-- V23 to V25, state Tc, whose THRI is pending. -/
theorem test_acknowledge_modes_tc : view (after (exec .rdRbr tc)) = ⟨false, true, 0x01#8, true, []⟩ ∧
    view (after (exec .rdRbr (withAck tc .seqCtiRdi))) = ⟨false, true, 0x01#8, true, [.raise 4]⟩ ∧
    view (after (exec .rdRbr (withAck tc .joint))) = ⟨false, true, 0x02#8, true, [.raise 4]⟩ := by decide
/-- V28: with DLAB set the divisor latch is read and nothing is popped. -/
theorem test_rdDll : exec .rdDll { ta with dll := 0x0C#8 } = .next { ta with dll := 0x0C#8, response := .byte 0x0C#8 } := rfl
/-- V29. -/
theorem test_rdIer : (after (exec .rdIer { s0 with ier := 0xF5#8 })).response = .byte 0x05#8 := by decide
/-- V30. -/
theorem test_rdDlh : (after (exec .rdDlh { s0 with dlh := 0xAB#8 })).response = .byte 0xAB#8 := by decide
/-- V32: a reported CTI survives the read. -/
theorem test_rdIir_cti : exec .rdIir ta = .next { ta with response := .byte 0xCC#8 } := rfl
/-- V34: THRI is dismissed; the masked CTI stays pending. -/
theorem test_rdIir_thri :
    after (exec .rdIir (withIrq s0 true true 0x02#8 0x02#8 true)) =
      { withIrq s0 true false 0x02#8 0x01#8 false with response := .byte 0xC2#8, out := [.clear 4] } := by decide
/-- V35. -/
theorem test_rdLcr : (after (exec .rdLcr { s0 with lcr := 0x80#8 })).response = .byte 0x80#8 := by decide
/-- V57, V62. -/
theorem test_rdA4 : exec .rdA4 s0 = .fault (.unsupportedRegister .read 4) ∧
    exec .rdA4 s0Err = .next { s0Err with response := .error .read 4 } := ⟨rfl, rfl⟩
/-- V36. -/
theorem test_rdLsr : (after (exec .rdLsr ta)).response = .byte 0x61#8 := by decide
/-- V37. -/
theorem test_rdMsr : (after (exec .rdMsr { s0 with mcr := 0x0B#8 })).response = .byte 0x00#8 := by decide
/-- V58, and an address above 7 (R101). -/
theorem test_rdA7 : exec (.rdA7 7) s0 = .fault (.unsupportedRegister .read 7) ∧
    exec (.rdA7 9) s0Err = .next { s0Err with response := .error .read 9 } := ⟨rfl, rfl⟩

/-! ### Register writes -/

/-- V38. -/
theorem test_wrThr_masked : after (exec (.wrThr 0x42#8) s0) =
    { s0 with ints := { CauseSet.empty with thri := true }, out := [.tx 0x42#8] } := by decide
/-- V39, and V41: a reported CTI is not displaced. -/
theorem test_wrThr_reports :
    view (after (exec (.wrThr 0x41#8) { s0 with ier := 0x02#8 })) =
      ⟨false, true, 0x02#8, true, [.tx 0x41#8, .raise 4]⟩ ∧
    view (after (exec (.wrThr 0x31#8) { ta with ier := 0x03#8 })) = ⟨true, true, 0x0C#8, true, [.tx 0x31#8]⟩ := by decide
/-- V42. -/
theorem test_wrDll : exec (.wrDll 0x0C#8) s0 = .next { s0 with dll := 0x0C#8 } := rfl
/-- V43, V44. -/
theorem test_wrIer : after (exec (.wrIer 0xF5#8) s0) = { s0 with ier := 0x05#8, out := [.clear 4] } ∧
    view (after (exec (.wrIer 0x01#8) (withIrq s0 true false 0 0x01#8 false))) =
      ⟨true, false, 0x0C#8, true, [.raise 4]⟩ := by decide
/-- V46: THRI may not displace the reported, now masked, CTI. -/
theorem test_wrIer_corner : after (exec (.wrIer 0x02#8) (withIrq s0 true true 0x03#8 0x0C#8 true)) =
    withIrq s0 true true 0x02#8 0x0C#8 true := by decide
/-- V47: all 8 bits, no output. -/
theorem test_wrDlh : exec (.wrDlh 0xAB#8) s0 = .next { s0 with dlh := 0xAB#8 } := rfl
/-- V48: bit 1 clears no FIFO. -/
theorem test_wrFcr : exec (.wrFcr 0x02#8) tb = .next { tb with fcr := 0x02#8 } := rfl
/-- V49. -/
theorem test_wrLcr : exec (.wrLcr 0x80#8) s0 = .next { s0 with lcr := 0x80#8 } := rfl
/-- V49. -/
theorem test_wrMcr : exec (.wrMcr 0x1B#8) s0 = .next { s0 with mcr := 0x1B#8 } := rfl
/-- V59, V62. -/
theorem test_wrA5 : exec (.wrA5 0#8) s0 = .fault (.unsupportedRegister .write 5) ∧
    exec (.wrA5 0#8) s0Err = .next { s0Err with response := .error .write 5 } := ⟨rfl, rfl⟩
/-- V60, V62. -/
theorem test_wrA6 : exec (.wrA6 0#8) s0 = .fault (.unsupportedRegister .write 6) ∧
    exec (.wrA6 0#8) s0Err = .next { s0Err with response := .error .write 6 } := ⟨rfl, rfl⟩
/-- V61, V62. -/
theorem test_wrA7 : exec (.wrA7 7 0x5A#8) s0 = .fault (.unsupportedRegister .write 7) ∧
    exec (.wrA7 8 0x5A#8) s0Err = .next { s0Err with response := .error .write 8 } := ⟨rfl, rfl⟩

/-! ### Events from outside the bus -/

/-- V50, V51. -/
theorem test_rx : view (after (exec (.rx 0x41#8) s0)) = ⟨true, false, 0x01#8, false, []⟩ ∧
    view (after (exec (.rx 0x41#8) { s0 with ier := 0x01#8 })) = ⟨true, false, 0x0C#8, true, [.raise 4]⟩ ∧
    (after (exec (.rx 0x41#8) s0)).fifo.seq = [0x41#8] ∧ (after (exec (.rx 0x41#8) s0)).lsr = 0x61#8 := by decide
/-- V53: CTI displaces a reported THRI. -/
theorem test_rx_displaces : view (after (exec (.rx 0x32#8) (withIrq s0 false true 0x03#8 0x02#8 true))) =
    ⟨true, true, 0x0C#8, true, [.raise 4]⟩ := by decide
/-- V55: the FIFO, the line and the outputs stay. -/
theorem test_rst : after (exec .rst { tb with out := [.raise 4], lcr := 0x83#8 }) =
    { s0 with fifo := queueOf [0x41#8, 0x42#8], irq := true, out := [.raise 4] } := by decide
/-- V56: only the FIFO changes. -/
theorem test_qrst : after (exec .qrst ta) = { ta with fifo := Queue.new } := by decide

/-! ### The queue -/

/-- V2, and E2: `get` follows the wrapped slots and has no value out of range. -/
theorem test_queue_wrap :
    let q := ((Queue.new.pushFront 5#8).pushBack 6#8).pushFront 4#8
    (q.beginIdx, q.endIdx, q.len) = (14, 1, 3) ∧
      (q.get? 0, q.get? 1, q.get? 2, q.get? 3) = (some 4#8, some 5#8, some 6#8, none) ∧
      q.popBack.1 = some 6#8 ∧ q.popBack.2.storage[0]? = some 0#8 ∧ q.popFront.1 = some 4#8 := by decide

/-- A full queue whose content wraps, the one of V4 before its last push. -/
def fullWrapped : Queue :=
  { storage := [17#8, 18#8, 3#8, 4#8, 5#8, 6#8, 7#8, 8#8] ++ [9#8, 10#8, 11#8, 12#8, 13#8, 14#8, 15#8, 16#8]
    beginIdx := 2, endIdx := 2, len := 16 }

/-- V4: growth lays the content out from slot 0. -/
theorem test_queue_growth :
    let q := fullWrapped.pushBack 19#8
    (q.capacity, q.beginIdx, q.endIdx, q.len) = (32, 0, 17, 17) ∧ q.slot 13 = 16#8 ∧ q.slot 14 = 17#8 ∧
      q.slot 16 = 19#8 ∧ q.slot 17 = 0#8 := by decide

/-- A sparse queue of 512 slots that holds 64 zero bytes, at the threshold of V6. -/
def sparse : Queue := { storage := List.replicate 512 0#8, beginIdx := 193, endIdx := 257, len := 64 }

/-- V6: 512 slots become 128. -/
theorem test_queue_shrink : sparse.popFront.2.capacity = 128 ∧ sparse.popFront.2.beginIdx = 1 ∧
    sparse.popFront.2.endIdx = 64 ∧ sparse.popFront.2.len = 63 := by
  refine ⟨?_, ?_, ?_, ?_⟩ <;> simp [-List.reduceReplicate, sparse, Queue.popFront, Queue.shrinkCheck, Queue.capacity, Queue.realloc, queueMinCapacity]

/-- V11, V12, V16, V18, V19, V22: the procedures on the vectors' states, two of them unreachable. -/
theorem test_procedures :
    view (signalCti (withIrq s0 false true 0x03#8 0x02#8 true)) = ⟨true, true, 0x0C#8, true, [.raise 4]⟩ ∧
    view (signalCti (withIrq s0 false false 0x01#8 0x04#8 true)) = ⟨true, false, 0x04#8, true, []⟩ ∧
    view (signalThri (withIrq s0 false false 0x02#8 0x00#8 true)) = ⟨false, true, 0x02#8, true, [.raise 4]⟩ ∧
    view (resolve (withIrq s0 true true 0x02#8 0x01#8 false)) = ⟨true, true, 0x02#8, true, [.raise 4]⟩ ∧
    view (resolve (withIrq s0 true true 0x02#8 0x0C#8 true)) = ⟨true, true, 0x0C#8, true, []⟩ ∧
    view (acknowledge .rdi (withIrq s0 true false 0x01#8 0x0C#8 true)) = ⟨true, false, 0x01#8, true, []⟩ := by decide

/-! ### Witnesses: states and operands that meet the hypotheses of each obligation -/

theorem ta_inv : ta.Inv :=
  ⟨by decide, by decide, by decide, by decide, by decide, by decide, by decide, by decide, by decide⟩

theorem ta_dr : ta.DrInv := by unfold State.DrInv; decide

/-- A state that accounts for its line. -/
def raised : State := { ta with out := [.tx 0x41#8, .raise 4] }

theorem raised_out : raised.OutInv := by
  refine ⟨rfl, ?_⟩
  intro o ho l hl
  simp only [raised, List.mem_cons, List.not_mem_nil, or_false] at ho
  rcases ho with rfl | rfl <;> rcases hl with h | h <;> cases h
  rfl

/-- `s` with the requests `r`. -/
def asking (s : State) (r : List Request) : State := { s with inputs := r }

theorem witness_StepRunsTheDecodedEvent :
    (asking tb [.read 1 0, .reset]).inputs = .read 1 0 :: [.reset] ∧
    decodeRequest ((asking tb [.read 1 0, .reset]).lcr.getLsbD 7) (.read 1 0) = .ok .rdRbr := ⟨rfl, rfl⟩

theorem witness_StepRefusesWhatIsNoEvent :
    s0.inputs = [] ∧
    (asking s0 [.word 0x5000#16]).inputs = .word 0x5000#16 :: [] ∧
    decodeRequest (s0.lcr.getLsbD 7) (.word 0x5000#16) = .error (.badKind 0x5000#16) ∧
    (0 ≠ 1 ∧ (asking s0 [.read 0 5]).inputs = .read 0 5 :: []) ∧
    (2 ≠ 1 ∧ (asking s0 [.write 2 0 0x4142]).inputs = .write 2 0 0x4142 :: []) := by decide

theorem witness_FetchWordRunsTheTableInstruction :
    decodeTableWord 24 0x1FFFF = none ∧ decodeTableWord 24 0x117FF = some (.wrA7 7 0xFF#8) ∧
    decodeTableWord 24 0 = some .rdRbr := by decide

theorem witness_DecodingInvertsEncoding :
    ((Instr.rdA7 7).wf = true ∧ (Instr.rdA7 7).hasWord = true ∧ (Instr.rdA7 7).admits true = true) ∧
    ((Instr.wrDll 0xFF#8).wf = true ∧ (Instr.wrDll 0xFF#8).hasWord = true ∧ (Instr.wrDll 0xFF#8).admits true = true) ∧
    ((Instr.wrThr 0xFF#8).wf = true ∧ (Instr.wrThr 0xFF#8).hasWord = true ∧
      (Instr.wrThr 0xFF#8).admits false = true) := by decide

theorem witness_EachWordIsItsEventsWord :
    decodeWord false 0x05FF#16 = .ok .rdLsr ∧ kindField 0x05FF#16 = 0x0#4 ∧
    decodeWord false 0x17FF#16 = .ok (.wrA7 7 0xFF#8) ∧ kindField 0x17FF#16 ≠ 0x0#4 := by decide

theorem witness_WordsThatSpellNoEvent :
    decodeWord false 0xF000#16 = .error (.badKind 0xF000#16) ∧ decodeWord false 0x4FFF#16 = .error (.reservedBit 0x4FFF#16) ∧
    decodeWord false 0x2700#16 = .error (.strayAddress 0x2700#16) ∧
    decodeWord false 0x40FF#16 = .error (.strayData 0x40FF#16) ∧ decodeWord false 0x4000#16 = .ok .qrst := by decide

theorem witness_OpcodeMapSelectsTheDecodedRow :
    (∃ r ∈ opcodeRows, r.selects 0x117FF#17 = true ∧ r.mnemonic = "WR.A7") ∧
    decodeKey 0x117FF#17 = .ok (.wrA7 7 0xFF#8) := by decide

theorem witness_RegisterMapSelectsTheRows : 7 ≤ 7 ∧ decodeRequest true (.read 1 7) = .ok (.rdA7 7) ∧
    decodeRequest false (.write 1 8 0xFF) = .ok (.wrA7 8 0xFF#8) := by decide

theorem witness_CallsAndWordsAskForTheSameEvents : 7 < 8 ∧ 255 < 256 ∧
    decodeRequest true (.word (BitVec.ofNat 16 (0x1000 + 0x100 * 7 + 255))) = .ok (.wrA7 7 0xFF#8) ∧
    decodeRequest true (.receive 0x141) = decodeRequest true (.word 0x2041#16) := by decide

theorem witness_AgentsIssueOnlyTheirOwnEvents :
    (decodeRequest true (.word 0x20FF#16) = .ok (.rx 0xFF#8) ∧ (Request.word 0x20FF#16).agent = some .receiveSource) ∧
    (decodeRequest true .queueReset = .ok .qrst ∧ Request.queueReset.agent = some .host) ∧
    (decodeRequest true (.read 1 0) = .ok .rdDll ∧ (Request.read 1 0).agent = some .busMaster) := by decide

theorem witness_RdIirAnswersThenAcknowledgesThri :
    s0.iir ≠ code .thri ∧ (withIrq s0 true true 0x03#8 0x02#8 true).iir = code .thri := by decide

theorem witness_RdRbrPopsTheOldestByte : s0.fifo.Wf ∧ s0.fifo.seq.length = 0 ∧ ta.fifo.Wf ∧ ta.fifo.seq.length = 1 ∧
    tb.fifo.Wf ∧ 1 < tb.fifo.seq.length := by decide

theorem witness_AcknowledgeRbrByMode :
    s0.iir = noInt ∧ (withIrq s0 true true 0x03#8 0x02#8 true).iir = code .thri ∧
    (tc.iir = code .cti ∧ tc.params.rbrAckMode = .seqRdiCti) ∧
    ((withAck tc .joint).iir = code .cti ∧ (withAck tc .joint).params.rbrAckMode ≠ .seqRdiCti) := by decide

theorem witness_AckModesAgreeOnWhatTheGuestReads :
    ta.Inv ∧ (∃ t, exec .rdRbr (withAck ta .joint) = .next t) ∧ (∃ t, exec .rdRbr (withAck ta .seqRdiCti) = .next t) ∧
    s0.iir ≠ code .cti := ⟨ta_inv, ⟨_, rfl⟩, ⟨_, rfl⟩, by decide⟩

theorem witness_WrIerStoresAndRearbitrates :
    ta.Inv ∧ (ta.ints.cti = true ∧ (0x01#8).getLsbD 0 = true ∧ ta.iir ≠ code .rlsi) ∧
    (tc.ints.thri = true ∧ (0x02#8).getLsbD 0 = false ∧ (0x02#8).getLsbD 1 = true ∧ tc.iir = code .cti) := by
  exact ⟨ta_inv, by decide, by decide⟩

theorem witness_RxQueuesTheByteAndSignals : fullWrapped.Wf ∧ s0.fifo.Wf := by decide

theorem witness_UnsupportedAccessesFault : s0.params.unsupportedMode = .fault := rfl

theorem witness_UnsupportedAccessesAnswerAnError : s0Err.params.unsupportedMode = .errorReturn := rfl

theorem witness_OnlyUnsupportedAccessesFail :
    unsupportedAccess (.rx 0xFF#8) = none ∧ unsupportedAccess (.wrA7 7 0#8) = some (.write, 7) := by decide

theorem witness_UnsupportedAddressesByDirection :
    s0.params.unsupportedMode = .fault ∧
    (∃ t, step (asking s0 [.read 1 6]) = .next t) ∧
    step (asking s0 [.read 1 7]) = .fault (.unsupportedRegister .read 7) ∧
    step (asking s0 [.read 1 4]) = .fault (.unsupportedRegister .read 4) ∧
    (∃ t, step (asking s0 [.write 1 4 0x1FF]) = .next t) ∧
    step (asking s0 [.write 1 5 0]) = .fault (.unsupportedRegister .write 5) :=
  ⟨rfl, ⟨_, rfl⟩, rfl, rfl, ⟨_, rfl⟩, rfl⟩

theorem witness_EmptyQueueAccessIsNoError : Queue.new.len = 0 ∧ s0.fifo.len = 0 ∧ Queue.new.len ≤ 0 := by decide

theorem witness_SupportedRunsNeverFault :
    s0Err.params.unsupportedMode = .errorReturn ∧
    ∀ r ∈ (asking s0 [.receive 0x41, .reset]).inputs, ∀ (dlab : Bool) (i : Instr),
      decodeRequest dlab r = .ok i → unsupportedAccess i = none := by
  refine ⟨rfl, ?_⟩
  intro r hr dlab i hi
  simp only [asking, List.mem_cons, List.not_mem_nil, or_false] at hr
  rcases hr with rfl | rfl <;> cases hi <;> rfl

theorem witness_PriorityActsInThreePlaces :
    (tc.iir = code .cti) ∧ (tc.ints.cti = true ∧ tc.ier.getLsbD 0 = true ∧ tc.iir ≠ code .rlsi ∧ tc.iir ≠ code .rdi) ∧
    (tc.ints.thri = true ∧ (withIrq s0 true true 0x02#8 0x01#8 false).ier.getLsbD 1 = true ∧
      (withIrq s0 true true 0x02#8 0x01#8 false).ier.getLsbD 0 = false ∧
      (withIrq s0 true true 0x02#8 0x01#8 false).iir = noInt) := by decide

theorem witness_AcknowledgeRearbitratesOnlyOnAMatch : tc.iir ≠ code .rdi ∧ tc.iir = code .cti := by decide

theorem witness_WhatAcknowledgesWhat :
    ((∃ t, exec .rdIir tc = .next t) ∧ tc.iir ≠ code .thri) ∧
    ((∃ t, exec .rdIir (withIrq s0 true true 0x03#8 0x02#8 true) = .next t) ∧
      (withIrq s0 true true 0x03#8 0x02#8 true).iir = code .thri) ∧
    ((withIrq s0 true true 0x03#8 0x02#8 true).iir ≠ code .rdi ∧
      (withIrq s0 true true 0x03#8 0x02#8 true).iir ≠ code .cti) ∧
    (∃ t, exec .rdLsr tc = .next t) ∧ (∃ t, exec .rdMsr tc = .next t) ∧ (∃ t, exec (.wrThr 0xFF#8) tc = .next t) :=
  ⟨⟨⟨_, rfl⟩, by decide⟩, ⟨⟨_, rfl⟩, by decide⟩, by decide, ⟨_, rfl⟩, ⟨_, rfl⟩, ⟨_, rfl⟩⟩

theorem witness_PendingCausesChangeOnlyAsListed :
    (s0.fifo.Wf ∧ s0.ints.cti = false ∧ (after (exec (.rx 0x41#8) s0)).ints.cti = true) ∧
    (ta.fifo.Wf ∧ ta.ints.cti = true ∧ (after (exec .rdRbr ta)).ints.cti = false) ∧
    (s0.ints.thri = false ∧ (after (exec (.wrThr 0x41#8) s0)).ints.thri = true) ∧
    (tc.ints.thri = true ∧ (after (exec .rst tc)).ints.thri = false) ∧
    (s0.ints.rlsi = false ∧ s0.ints.msi = false ∧ s0.ints.rdi = false) := by decide

theorem witness_ReportsRaiseAndClearsWithdraw :
    (∃ t, exec (.rx 0x41#8) { s0 with ier := 0x01#8 } = .next t ∧ t.iir ≠ s0.iir ∧ t.iir ≠ noInt) ∧
    (∃ t, exec (.wrIer 0x00#8) ta = .next t ∧ t.out = ta.out ++ [.clear 4] ∧ lineAfter true [.clear 4] = false) :=
  ⟨⟨_, rfl, by decide, by decide⟩, ⟨_, rfl, rfl, rfl⟩⟩

theorem witness_StepKeepsTheInvariant :
    (asking ta [.read 1 0]).Inv ∧ ∃ t, step (asking ta [.read 1 0]) = .next t :=
  ⟨⟨by decide, by decide, by decide, by decide, by decide, by decide, by decide, by decide, by decide⟩, ⟨_, rfl⟩⟩

theorem witness_DataReadyTellsQueuedBytes :
    Instr.rdRbr ≠ .rst ∧ Instr.rdRbr ≠ .qrst ∧ ta.DrInv ∧ ∃ t, exec .rdRbr ta = .next t :=
  ⟨by decide, by decide, ta_dr, ⟨_, rfl⟩⟩

theorem witness_LineFollowsTheOutputs :
    (asking raised [.read 1 2]).OutInv ∧ ∃ t, step (asking raised [.read 1 2]) = .next t :=
  ⟨raised_out, ⟨_, rfl⟩⟩

theorem witness_StepTakesOneRequestAndAppends : ∃ t, step (asking tb [.read 1 0, .reset]) = .next t := ⟨_, rfl⟩

theorem witness_FifoKeepsArrivalOrder :
    (tb.fifo.Wf ∧ (∃ t, exec .rdRbr tb = .next t) ∧ Instr.rdRbr ≠ .qrst ∧ bytesTaken .rdRbr tb = [0x41#8]) ∧
    (∃ t, exec .qrst tb = .next t) ∧
    ((∃ t, exec .rst tb = .next t) ∧ (∀ b, Instr.rst ≠ .rx b) ∧ Instr.rst ≠ .rdRbr ∧ Instr.rst ≠ .qrst) :=
  ⟨⟨by decide, ⟨_, rfl⟩, by decide, by decide⟩, ⟨_, rfl⟩, ⟨_, rfl⟩, (fun _ h => nomatch h), by decide, by decide⟩

theorem witness_TransmitsExactlyWhatIsWritten : ∃ t, exec (.wrThr 0xFF#8) raised = .next t := ⟨_, rfl⟩

theorem witness_DlabRedirectsTwoAddresses :
    2 ≤ 2 ∧ { s0 with lcr := 0x80#8 }.lcr.getLsbD 7 = true ∧
    (asking { s0 with lcr := 0x80#8 } [.read 1 0]).inputs = .read 1 0 :: [] ∧
    (asking { s0 with lcr := 0x80#8 } [.write 1 1 0xFF]).inputs = .write 1 1 (0xFF#8).toNat :: [] ∧
    decodeRequest true (.read 1 0) = .ok .rdDll ∧
    (∃ t, exec (.wrLcr 0x80#8) s0 = .next t) ∧ (∃ t, exec .rst tb = .next t) ∧
    ((∃ t, exec .rdRbr tb = .next t) ∧ (∀ v, Instr.rdRbr ≠ .wrLcr v) ∧ Instr.rdRbr ≠ .rst) :=
  ⟨by decide, by decide, rfl, rfl, rfl, ⟨_, rfl⟩, ⟨_, rfl⟩, ⟨_, rfl⟩, (fun _ h => nomatch h), by decide⟩

theorem witness_OutputsAreNeverRead :
    (∃ t, exec .rdRbr raised = .next t) ∧ exec .rdA4 s0 = .fault (.unsupportedRegister .read 4) := ⟨⟨_, rfl⟩, rfl⟩

theorem witness_InertRegistersSteerNothing :
    Instr.rdRbr ≠ .rdLcr ∧ Instr.rdRbr ≠ .rdDll ∧ Instr.rdRbr ≠ .rdDlh ∧ ∃ t, exec .rdRbr tb = .next t :=
  ⟨by decide, by decide, by decide, ⟨_, rfl⟩⟩

theorem witness_PushBackStoresAtTheEnd :
    (tb.fifo.Wf ∧ tb.fifo.len < tb.fifo.capacity) ∧ (fullWrapped.Wf ∧ fullWrapped.len = fullWrapped.capacity) := by decide

theorem witness_PushFrontStoresAtTheBegin :
    (Queue.new.Wf ∧ Queue.new.len < Queue.new.capacity ∧ Queue.new.beginIdx = 0) ∧
    (fullWrapped.Wf ∧ fullWrapped.len = fullWrapped.capacity) := by decide

theorem witness_PopsShrinkOnlyASparseQueue :
    (sparse.Wf ∧ sparse.len ≠ 0 ∧ sparse.len ≤ sparse.capacity / 4 / 2 ∧ 128 ≤ sparse.capacity / 4) ∧
    (tb.fifo.Wf ∧ tb.fifo.len ≠ 0) := by
  refine ⟨⟨?_, ?_⟩, by decide⟩
  · refine ⟨?_, ?_, ?_, ?_, ?_, ?_⟩
    · simp [-List.reduceReplicate, sparse, Queue.capacity]
    · simp [-List.reduceReplicate, sparse, Queue.capacity]
    · simp [-List.reduceReplicate, sparse, Queue.capacity]
    · have h : Nat.log2 512 = 9 := by decide
      simp [-List.reduceReplicate, sparse, Queue.capacity, h]
    · simp [-List.reduceReplicate, sparse, Queue.capacity, queueInitCapacity]
    · intro i _
      have h (j : Nat) : sparse.slot j = queueEmptyValue := by
        unfold Queue.slot sparse queueEmptyValue
        rw [List.getD_eq_getElem?_getD, List.getElem?_replicate]
        split <;> rfl
      exact h _
  · simp [-List.reduceReplicate, sparse, Queue.capacity]

theorem witness_VacatedSlotsHoldTheSentinel :
    tb.fifo.Wf ∧ 0 < tb.fifo.popFront.2.capacity ∧
    ∀ j, j < tb.fifo.popFront.2.len → (tb.fifo.popFront.2.beginIdx + j) % tb.fifo.popFront.2.capacity ≠ 0 := by decide

/-- The ports of a step with no strobe. -/
def idlePorts : PortsIn :=
  { addr := 0#3, wdata := 0x42#8, rd := false, wr := false, rx := false, rxdata := 0x41#8, rst := false }

/-- `idlePorts` with one strobe for each kind of event. -/
def readPorts (a : BitVec 3) : PortsIn := { idlePorts with rd := true, addr := a }
def writePorts (a : BitVec 3) : PortsIn := { idlePorts with wr := true, addr := a }
def rxPorts : PortsIn := { idlePorts with rx := true }
def rstPorts : PortsIn := { idlePorts with rst := true }

/-- The ports after one step of `s`. -/
def shown (p : PortsIn) (s : State) : PortsOut := portsOut p s (portStep p s)

theorem witness_PortsShowTheStep :
    (readSupported (readPorts 6#3).addr.toNat = true ∧ (shown (readPorts 6#3) s0).rdata = some 0x00#8) ∧
    (readSupported (readPorts 7#3).addr.toNat = false ∧ (shown (readPorts 7#3) s0).fault = true) ∧
    ((writePorts 0#3).addr = 0#3 ∧ (shown (writePorts 0#3) s0).txValid = true ∧
      (shown (writePorts 0#3) s0).txdata = some 0x42#8) ∧
    (shown (writePorts 0#3) { s0 with lcr := 0x80#8 }).txValid = false ∧
    (∃ t, portStep rxPorts s0 = .next t) ∧ (∃ t, portStep rstPorts s0 = .next t) ∧
    portStep (readPorts 4#3) s0 = .fault (.unsupportedRegister .read 4) :=
  ⟨by decide, by decide, by decide, by decide, ⟨_, rfl⟩, ⟨_, rfl⟩, rfl⟩

/-- `fault` is one pulse per UnsupportedRegister and `rdata` is driven by the read alone: an idle step after either
shows nothing (R13). -/
theorem test_ports_idle :
    (shown (readPorts 4#3) s0Err).fault = true ∧
    (shown idlePorts (after (portStep (readPorts 4#3) s0Err))).fault = false ∧
    (shown (readPorts 3#3) s0).rdata = some 0x03#8 ∧
    (shown idlePorts (after (portStep (readPorts 3#3) s0))).rdata = none := by decide

theorem witness_UnsupportedAccessMakesARunUnsafe :
    (asking s0Err [.receive 0x41, .read 1 0, .read 1 4, .reset]).inputs =
      [.receive 0x41, .read 1 0] ++ .read 1 4 :: [.reset] ∧
    (∀ q ∈ [Request.receive 0x41, .read 1 0], ∀ dlab : Bool, ∃ i, decodeRequest dlab q = .ok i) ∧
    (∀ dlab : Bool, ∃ i, decodeRequest dlab (.read 1 4) = .ok i ∧ unsupportedAccess i ≠ none) ∧
    [Request.receive 0x41, .read 1 0].length < 3 := by
  refine ⟨rfl, ?_, fun dlab => ⟨.rdA4, by cases dlab <;> rfl, by decide⟩, by decide⟩
  intro q hq dlab
  simp only [List.mem_cons, List.not_mem_nil, or_false] at hq
  rcases hq with rfl | rfl <;> exact ⟨_, rfl⟩

theorem witness_StepsSeeRegisterAddressesOnly :
    registerAddr s0.params 0x96000005 = some 5 ∧ 0x95FFFFFF < s0.params.uartBase ∧
    busRead s0.params 1 0x95FFFFFF = none ∧
    (∃ t, step (asking s0 [.read 1 5]) = .next t) ∧
    step (asking s0 [.read 1 4]) = .fault (.unsupportedRegister .read 4) ∧ step s0 = .refused .noEvent :=
  ⟨by decide, by decide, by decide, ⟨_, rfl⟩, rfl, rfl⟩

end Sys2Proof.Tests
end

section
/-! The register map (20_memory.md R61): the row each address selects, one equation per address and direction, and
O11. -/

namespace Sys2Proof

section
variable (dlab : Bool) (a : Nat) (v : Byte)

/-! ### Reads -/

@[simp] theorem decodeRead_zero : decodeRead dlab 0 = if dlab then .rdDll else .rdRbr := by simp [decodeRead]
@[simp] theorem decodeRead_one : decodeRead dlab 1 = if dlab then .rdDlh else .rdIer := by simp [decodeRead]
@[simp] theorem decodeRead_two : decodeRead dlab 2 = .rdIir := by simp [decodeRead]
@[simp] theorem decodeRead_three : decodeRead dlab 3 = .rdLcr := by simp [decodeRead]
@[simp] theorem decodeRead_four : decodeRead dlab 4 = .rdA4 := by simp [decodeRead]
@[simp] theorem decodeRead_five : decodeRead dlab 5 = .rdLsr := by simp [decodeRead]
@[simp] theorem decodeRead_six : decodeRead dlab 6 = .rdMsr := by simp [decodeRead]

variable {a} in
/-- Every address from 7 up is read as address 7 is (30_encoding.md R101). -/
theorem decodeRead_of_seven_le (h : 7 ≤ a) : decodeRead dlab a = .rdA7 a := by
  unfold decodeRead
  iterate 9 rw [if_neg (by omega)]

/-! ### Writes -/

@[simp] theorem decodeWrite_zero : decodeWrite dlab 0 v = if dlab then .wrDll v else .wrThr v := by simp [decodeWrite]
@[simp] theorem decodeWrite_one : decodeWrite dlab 1 v = if dlab then .wrDlh v else .wrIer v := by simp [decodeWrite]
@[simp] theorem decodeWrite_two : decodeWrite dlab 2 v = .wrFcr v := by simp [decodeWrite]
@[simp] theorem decodeWrite_three : decodeWrite dlab 3 v = .wrLcr v := by simp [decodeWrite]
@[simp] theorem decodeWrite_four : decodeWrite dlab 4 v = .wrMcr v := by simp [decodeWrite]
@[simp] theorem decodeWrite_five : decodeWrite dlab 5 v = .wrA5 v := by simp [decodeWrite]
@[simp] theorem decodeWrite_six : decodeWrite dlab 6 v = .wrA6 v := by simp [decodeWrite]

variable {a} in
/-- Every address from 7 up is written as address 7 is (30_encoding.md R101). -/
theorem decodeWrite_of_seven_le (h : 7 ≤ a) : decodeWrite dlab a v = .wrA7 a v := by
  unfold decodeWrite
  iterate 9 rw [if_neg (by omega)]

/-! ### The calls, one byte wide -/

theorem decodeRequest_read_one : decodeRequest dlab (.read 1 a) = .ok (decodeRead dlab a) := rfl

/-- A written value that is a byte reaches its row unchanged (30_encoding.md R96). -/
theorem decodeRequest_write_one_toNat :
    decodeRequest dlab (.write 1 a v.toNat) = .ok (decodeWrite dlab a v) := by
  rw [decodeRequest, if_pos rfl, maskByte_of_toNat]

end

/-- Settles O11: the rows are the equations above, and the unsupported cells are arms of `exec`. -/
theorem registerMapSelectsTheRows : Obligations.RegisterMapSelectsTheRows := by
  refine ⟨fun dlab => ?reads, fun dlab v => ?writes, fun s v a => ?unsupported⟩
  case reads => simp +contextual [decodeRequest_read_one, decodeRead_of_seven_le]
  case writes => simp +contextual [decodeRequest_write_one_toNat, decodeWrite_of_seven_le]
  case unsupported => exact ⟨rfl, rfl, rfl, rfl, rfl⟩

end Sys2Proof
end

section
/-! The bytes of the receive FIFO (20_memory.md R81): what each event does to the FIFO, said once, and O42. -/

namespace Sys2Proof.Machine

section
variable {s t u : State} {i : Instr} {r : Response}

/-! ### The shared operations -/

@[simp] theorem setDataReady_fifo (s : State) : (setDataReady s).fifo = s.fifo := rfl
@[simp] theorem clearDataReady_fifo (s : State) : (clearDataReady s).fifo = s.fifo := rfl

@[simp] theorem announceRemaining_fifo (s : State) : (announceRemaining s).fifo = s.fifo := by
  rcases announceRemaining_cases s with ⟨-, h⟩ | ⟨-, h⟩ <;> simp [h]

/-- What `answer` completes with. An arm of `exec` that ends in `answer` is that `answer` by definition, so a hypothesis
about the event is one about its `answer`. -/
theorem answer_next (h : answer r u = .next t) : t = u.respond r := by
  cases h
  rfl

theorem answer_fifo (h : answer r u = .next t) : t.fifo = u.fifo := by
  rw [answer_next h, State.respond_fifo]

theorem unsupportedRegister_fifo {d : Dir} {a : Nat} (h : unsupportedRegister d a s = .next t) : t.fifo = s.fifo := by
  rcases unsupportedRegister_cases s d a with ⟨-, hfault⟩ | ⟨-, hanswer⟩
  · rw [hfault] at h
    cases h
  · exact answer_fifo (hanswer ▸ h)

/-! ### The three events that reach the FIFO -/

theorem exec_rx_fifo {b : Byte} (h : exec (.rx b) s = .next t) : t.fifo = s.fifo.pushBack b :=
  (answer_fifo h).trans (by simp)

theorem exec_qrst_fifo (h : exec .qrst s = .next t) : t.fifo = Queue.new :=
  answer_fifo h

/-- RD.RBR removes the oldest byte, if there is one (42_register_reads.md R160). -/
theorem exec_rdRbr_fifo (hw : s.fifo.Wf) (h : exec .rdRbr s = .next t) :
    t.fifo.Wf ∧ t.fifo.seq = s.fifo.seq.tail := by
  have hfifo : t.fifo = (dropReceived (acknowledgeRbr s)).fifo := (answer_fifo h).trans (by simp)
  have hdrop := dropReceived_spec (acknowledgeRbr s) (by simpa using hw)
  rwa [← hfifo, acknowledgeRbr_fifo] at hdrop

/-- RD.RBR answers the oldest byte, or the idle byte when there is none (R160). -/
theorem exec_rdRbr_response (hw : s.fifo.Wf) (h : exec .rdRbr s = .next t) :
    t.response = .byte (s.fifo.seq.head?.getD s.params.rbrIdle) := by
  have hbyte := receiveByte_eq (acknowledgeRbr s) (by simpa using hw)
  rw [acknowledgeRbr_fifo, acknowledgeRbr_params] at hbyte
  rw [answer_next h, State.respond_response, hbyte]

/-! ### Every other event -/

theorem exec_rdIir_fifo (h : exec .rdIir s = .next t) : t.fifo = s.fifo := by
  rw [answer_fifo h]
  split <;> simp

/-- No event but RX, RD.RBR and QRST reaches the FIFO (20_memory.md R81). -/
theorem exec_keeps_fifo (h : exec i s = .next t) (hrx : ∀ b, i ≠ .rx b) (hrd : i ≠ .rdRbr) (hq : i ≠ .qrst) :
    t.fifo = s.fifo := by
  cases i with
  | rx b => exact absurd rfl (hrx b)
  | rdRbr => exact absurd rfl hrd
  | qrst => exact absurd rfl hq
  | rdA4 | rdA7 | wrA5 | wrA6 | wrA7 => exact unsupportedRegister_fifo h
  | rdIir => exact exec_rdIir_fifo h
  | wrThr | wrIer => exact (answer_fifo h).trans (by simp)
  | rdDll | rdIer | rdDlh | rdLcr | rdLsr | rdMsr => exact (answer_fifo h).trans rfl
  | wrDll | wrDlh | wrFcr | wrLcr | wrMcr | rst => exact (answer_fifo h).trans rfl

theorem bytesTaken_eq_nil (hrd : i ≠ .rdRbr) : bytesTaken i s = [] := by
  cases i with
  | rdRbr => exact absurd rfl hrd
  | _ => rfl

theorem bytesReceived_eq_nil (hrx : ∀ b, i ≠ .rx b) : bytesReceived i = [] := by
  cases i with
  | rx b => exact absurd rfl (hrx b)
  | _ => rfl

/-! ### What an event does to the FIFO -/

/-- What an event can do to the FIFO (20_memory.md R81): RX appends its byte, RD.RBR takes the oldest, QRST makes
the queue new, and every other event keeps it. -/
theorem exec_fifo_cases (hw : s.fifo.Wf) (h : exec i s = .next t) :
    (∃ b, i = .rx b ∧ t.fifo = s.fifo.pushBack b) ∨
    (i = .rdRbr ∧ t.fifo.Wf ∧ t.fifo.seq = s.fifo.seq.tail) ∨
    (i = .qrst ∧ t.fifo = Queue.new) ∨
    ((∀ b, i ≠ .rx b) ∧ i ≠ .rdRbr ∧ i ≠ .qrst ∧ t.fifo = s.fifo) := by
  by_cases hrx : ∃ b, i = .rx b
  · obtain ⟨b, rfl⟩ := hrx
    exact .inl ⟨b, rfl, exec_rx_fifo h⟩
  by_cases hrd : i = .rdRbr
  · subst hrd
    exact .inr (.inl ⟨rfl, exec_rdRbr_fifo hw h⟩)
  by_cases hq : i = .qrst
  · subst hq
    exact .inr (.inr (.inl ⟨rfl, exec_qrst_fifo h⟩))
  · have hrx' : ∀ b, i ≠ .rx b := fun b hb => hrx ⟨b, hb⟩
    exact .inr (.inr (.inr ⟨hrx', hrd, hq, exec_keeps_fifo h hrx' hrd hq⟩))

theorem exec_keeps_fifo_wf (hw : s.fifo.Wf) (h : exec i s = .next t) : t.fifo.Wf := by
  rcases exec_fifo_cases hw h with ⟨b, -, hf⟩ | ⟨-, hwf, -⟩ | ⟨-, hf⟩ | ⟨-, -, -, hf⟩
  · exact hf ▸ (Queue.pushBack_spec hw).1
  · exact hwf
  · exact hf ▸ Queue.new_wf
  · exact hf ▸ hw

/-- Conservation in order: what an event hands out, then what stays queued, is what was queued, then what arrived
(20_memory.md R81). -/
theorem exec_conserves_bytes (hw : s.fifo.Wf) (h : exec i s = .next t) (hq : i ≠ .qrst) :
    bytesTaken i s ++ t.fifo.seq = s.fifo.seq ++ bytesReceived i := by
  rcases exec_fifo_cases hw h with ⟨b, rfl, hf⟩ | ⟨rfl, -, hseq⟩ | ⟨rfl, -⟩ | ⟨hrx, hrd, -, hf⟩
  · rw [hf, (Queue.pushBack_spec hw).2]
    rfl
  · calc s.fifo.seq.take 1 ++ t.fifo.seq
      _ = s.fifo.seq.take 1 ++ s.fifo.seq.drop 1 := by rw [hseq, List.drop_one]
      _ = s.fifo.seq ++ [] := by rw [List.take_append_drop, List.append_nil]
  · exact absurd rfl hq
  · rw [bytesTaken_eq_nil hrd, bytesReceived_eq_nil hrx, hf, List.nil_append, List.append_nil]

/-- The byte taken from the FIFO is the byte the guest is answered (R160). -/
theorem exec_answers_byte_taken (hw : s.fifo.Wf) (h : exec i s = .next t) {b : Byte} (hb : bytesTaken i s = [b]) :
    t.response = .byte b := by
  by_cases hrd : i = .rdRbr
  · subst hrd
    have hhead : s.fifo.seq.head? = some b := by
      rwa [bytesTaken, List.take_one, Option.toList_eq_singleton_iff] at hb
    rw [exec_rdRbr_response hw h, hhead, Option.getD_some]
  · rw [bytesTaken_eq_nil hrd] at hb
    cases hb

end

/-- Settles O42: each clause is a lemma over the four things an event can do to the FIFO. -/
theorem fifoKeepsArrivalOrder : Obligations.FifoKeepsArrivalOrder := by
  intro i s t hw h
  refine ⟨exec_keeps_fifo_wf hw h, exec_conserves_bytes hw h, ?_, exec_keeps_fifo h,
    fun b => exec_answers_byte_taken hw h⟩
  rintro rfl
  rw [exec_qrst_fifo h, Queue.new_seq]

end Sys2Proof.Machine
end

section
/-! The registers that steer nothing (10_state.md sections 2.1 and 2.5): every operation of an event commutes with
putting other values into LCR, MCR, FCR, DLL and DLH, and O46. -/

namespace Sys2Proof.Machine

/-- Values for the registers that steer no event once it is decoded: LCR, MCR, FCR, DLL and DLH. -/
structure InertValues where
  lcr : Byte
  mcr : Byte
  fcr : Byte
  dll : Byte
  dlh : Byte

/-- The state with the values `x` in its inert registers. -/
def State.withInert (s : State) (x : InertValues) : State :=
  { s with lcr := x.lcr, mcr := x.mcr, fcr := x.fcr, dll := x.dll, dlh := x.dlh }

/-- What the event `i`, which completed in `t`, leaves in inert registers that held `x`: the values of `t` in those it
writes, and `x` in the others. -/
def InertValues.afterEvent (x : InertValues) (i : Instr) (t : State) : InertValues :=
  { lcr := if writesLcr i then t.lcr else x.lcr
    mcr := if writesMcr i then t.mcr else x.mcr
    fcr := if writesFcr i then t.fcr else x.fcr
    dll := if writesDll i then t.dll else x.dll
    dlh := if writesDlh i then t.dlh else x.dlh }

section
variable (s : State) (x : InertValues)

/-! ### The fields an event may look at, and the updates of other fields -/

@[simp] theorem withInert_lsr : (s.withInert x).lsr = s.lsr := rfl
@[simp] theorem withInert_ier : (s.withInert x).ier = s.ier := rfl
@[simp] theorem withInert_iir : (s.withInert x).iir = s.iir := rfl
@[simp] theorem withInert_ints : (s.withInert x).ints = s.ints := rfl
@[simp] theorem withInert_fifo : (s.withInert x).fifo = s.fifo := rfl
@[simp] theorem withInert_params : (s.withInert x).params = s.params := rfl

@[simp] theorem setLsr_withInert (v : Byte) : (s.withInert x).setLsr v = (s.setLsr v).withInert x := rfl
@[simp] theorem setIer_withInert (v : Byte) : (s.withInert x).setIer v = (s.setIer v).withInert x := rfl
@[simp] theorem setIir_withInert (v : Byte) : (s.withInert x).setIir v = (s.setIir v).withInert x := rfl
@[simp] theorem setInts_withInert (c : CauseSet) : (s.withInert x).setInts c = (s.setInts c).withInert x := rfl
@[simp] theorem setFifo_withInert (q : Queue) : (s.withInert x).setFifo q = (s.setFifo q).withInert x := rfl
@[simp] theorem txPut_withInert (b : Byte) : (s.withInert x).txPut b = (s.txPut b).withInert x := rfl
@[simp] theorem irqClear_withInert : (s.withInert x).irqClear = s.irqClear.withInert x := rfl
@[simp] theorem report_withInert (c : Cause) : report c (s.withInert x) = (report c s).withInert x := rfl

/-! ### The interrupt procedures (41_interrupt_state_machine.md R140 to R144) -/

@[simp] theorem signalCti_withInert : signalCti (s.withInert x) = (signalCti s).withInert x := by
  by_cases he : rdiEnabled s.ier = false
  · simp [signalCti, he]
  · by_cases hi : s.iir ≠ code .rlsi ∧ s.iir ≠ code .rdi <;> simp [signalCti, he, hi]

@[simp] theorem signalThri_withInert : signalThri (s.withInert x) = (signalThri s).withInert x := by
  by_cases he : thriEnabled s.ier = false
  · simp [signalThri, he]
  · by_cases hi : s.iir = noInt ∨ s.iir = code .msi ∨ s.iir = code .thri <;> simp [signalThri, he, hi]

@[simp] theorem resolve_withInert : resolve (s.withInert x) = (resolve s).withInert x := by
  by_cases hc : s.ints.cti = true ∧ rdiEnabled s.ier = true
  · simp [resolve, hc]
  · by_cases ht : s.ints.thri = true ∧ thriEnabled s.ier = true <;> simp [resolve, hc, ht]

@[simp] theorem acknowledge_withInert (c : Cause) :
    acknowledge c (s.withInert x) = (acknowledge c s).withInert x := by
  by_cases h : s.iir = code c <;> simp [acknowledge, h]

@[simp] theorem acknowledgeJoint_withInert :
    acknowledgeJoint (s.withInert x) = (acknowledgeJoint s).withInert x := by
  by_cases h : s.iir = code .rdi ∨ s.iir = code .cti <;> simp [acknowledgeJoint, h]

@[simp] theorem acknowledgeRbr_withInert : acknowledgeRbr (s.withInert x) = (acknowledgeRbr s).withInert x := by
  unfold acknowledgeRbr
  rw [withInert_params]
  split <;> simp

/-! ### The receive buffer (42_register_reads.md R160) -/

@[simp] theorem receiveByte_withInert : receiveByte (s.withInert x) = receiveByte s := rfl

@[simp] theorem dropReceived_withInert : dropReceived (s.withInert x) = (dropReceived s).withInert x := by
  by_cases h : s.fifo.isEmpty <;> simp [dropReceived, h]

@[simp] theorem setDataReady_withInert : setDataReady (s.withInert x) = (setDataReady s).withInert x := rfl
@[simp] theorem clearDataReady_withInert : clearDataReady (s.withInert x) = (clearDataReady s).withInert x := rfl

@[simp] theorem announceRemaining_withInert :
    announceRemaining (s.withInert x) = (announceRemaining s).withInert x := by
  by_cases h : s.fifo.isEmpty <;> simp [announceRemaining, h]

end

/-! ### The ends of an event -/

section
variable {s t u u' : State} {x : InertValues}

theorem answer_withInert {r r' : Response} (h : answer r u = .next t) (hr : r' = r) (hu : u' = u.withInert x) :
    answer r' u' = .next (t.withInert x) := by
  rw [answer_next h, hr, hu]
  rfl

theorem unsupportedRegister_withInert {d : Dir} {a : Nat} (h : unsupportedRegister d a s = .next t) :
    unsupportedRegister d a (s.withInert x) = .next (t.withInert x) := by
  rcases unsupportedRegister_cases s d a with ⟨-, hfault⟩ | ⟨hmode, hanswer⟩
  · rw [hfault] at h
    cases h
  · rw [unsupportedRegister, withInert_params, hmode]
    exact answer_withInert (hanswer.symm.trans h) rfl rfl

/-! ### Every event -/

/-- With other values in the inert registers an event does the same to everything else; what it does to the inert
registers is to write some of them. -/
theorem exec_withInert {i : Instr} (x : InertValues) (hlcr : i ≠ .rdLcr) (hdll : i ≠ .rdDll) (hdlh : i ≠ .rdDlh)
    (h : exec i s = .next t) : exec i (s.withInert x) = .next (t.withInert (x.afterEvent i t)) := by
  cases i with
  | rdLcr => exact absurd rfl hlcr
  | rdDll => exact absurd rfl hdll
  | rdDlh => exact absurd rfl hdlh
  | rdA4 | rdA7 | wrA5 | wrA6 | wrA7 => exact unsupportedRegister_withInert h
  | rdIer | rdLsr | rdMsr | qrst => exact answer_withInert h rfl rfl
  | rdRbr | wrThr | wrIer | rx => exact answer_withInert (x := x) h (by simp) (by simp)
  | rdIir => exact answer_withInert (x := x) h rfl (by by_cases hi : s.iir = code .thri <;> simp [hi])
  | wrLcr | wrMcr | wrFcr | wrDll | wrDlh | rst =>
    cases h
    rfl

end

/-- Settles O46: an event's operations look at no inert register, so they commute with other values in them. -/
theorem inertRegistersSteerNothing : Obligations.InertRegistersSteerNothing := by
  intro i s t lcr mcr fcr dll dlh hlcr hdll hdlh h
  exact exec_withInert ⟨lcr, mcr, fcr, dll, dlh⟩ hlcr hdll hdlh h

end Sys2Proof.Machine
end

section
/-! The accesses each direction supports (30_encoding.md R101): which addresses select an unsupported row, what the
events do that make an unsupported access or none, and O29. -/

namespace Sys2Proof.Machine

section
variable {s : State} {i : Instr} {d : Dir} {a : Nat}

/-! ### Which rows the addresses select -/

theorem unsupportedAccess_decodeRead (dlab : Bool) (a : Nat) :
    unsupportedAccess (decodeRead dlab a) = if readSupported a then none else some (.read, a) := by
  match a with
  | 0 | 1 | 2 | 3 | 4 | 5 | 6 => cases dlab <;> rfl
  | a + 7 =>
    rw [decodeRead_of_seven_le dlab (by omega)]
    rfl

theorem unsupportedAccess_decodeWrite (dlab : Bool) (a : Nat) (v : Byte) :
    unsupportedAccess (decodeWrite dlab a v) = if writeSupported a then none else some (.write, a) := by
  match a with
  | 0 | 1 | 2 | 3 | 4 | 5 | 6 => cases dlab <;> rfl
  | a + 7 =>
    rw [decodeWrite_of_seven_le dlab v (by omega)]
    rfl

theorem readSupported_iff : readSupported a = true ↔ a = 0 ∨ a = 1 ∨ a = 2 ∨ a = 3 ∨ a = 5 ∨ a = 6 := by
  simp [readSupported, or_assoc]

theorem writeSupported_iff : writeSupported a = true ↔ a = 0 ∨ a = 1 ∨ a = 2 ∨ a = 3 ∨ a = 4 := by
  simp [writeSupported, or_assoc]

/-! ### What the events do -/

/-- An event that makes no unsupported access completes (60_exceptions.md R210). -/
theorem exec_completes (h : unsupportedAccess i = none) (s : State) : ∃ t, exec i s = .next t := by
  cases i with
  | rdA4 | rdA7 | wrA5 | wrA6 | wrA7 => cases h
  | rdRbr | rdDll | rdIer | rdDlh | rdIir | rdLcr | rdLsr | rdMsr => exact ⟨_, rfl⟩
  | wrThr | wrDll | wrIer | wrDlh | wrFcr | wrLcr | wrMcr => exact ⟨_, rfl⟩
  | rx | rst | qrst => exact ⟨_, rfl⟩

/-- An event that makes an unsupported access raises UnsupportedRegister with it and does nothing else (R211). -/
theorem exec_unsupported (h : unsupportedAccess i = some (d, a)) (s : State) :
    exec i s = unsupportedRegister d a s := by
  cases i with
  | rdA4 | rdA7 | wrA5 | wrA6 | wrA7 =>
    cases h
    rfl
  | rdRbr | rdDll | rdIer | rdDlh | rdIir | rdLcr | rdLsr | rdMsr => cases h
  | wrThr | wrDll | wrIer | wrDlh | wrFcr | wrLcr | wrMcr => cases h
  | rx | rst | qrst => cases h

theorem unsupportedRegister_of_fault (h : s.params.unsupportedMode = .fault) :
    unsupportedRegister d a s = .fault (.unsupportedRegister d a) := by
  rw [unsupportedRegister, h]

/-! ### The step -/

/-- A step runs the event its first request decodes to, with that request taken (20_memory.md R73). -/
theorem step_of_inputs {r : Request} {rest : List Request} (hr : s.inputs = r :: rest)
    (hi : decodeRequest s.dlab r = .ok i) : step s = exec i (s.setInputs rest) := by
  simp [step, nextEvent, hr, hi]

/-- Under `UNSUPPORTED_MODE = FAULT` a step whose event accesses `a` completes when `a` is in the direction's set
and faults when it is not (R211). -/
theorem step_completes_or_faults {r : Request} {rest : List Request} {supported : Bool}
    (hmode : s.params.unsupportedMode = .fault) (hr : s.inputs = r :: rest) (hi : decodeRequest s.dlab r = .ok i)
    (hacc : unsupportedAccess i = if supported then none else some (d, a)) :
    if supported then ∃ t, step s = .next t else step s = .fault (.unsupportedRegister d a) := by
  rw [step_of_inputs hr hi]
  cases supported with
  | true => exact exec_completes hacc _
  | false => exact (exec_unsupported hacc _).trans (unsupportedRegister_of_fault hmode)

end

/-- Settles O29: the rows of the addresses outside a direction's set are its unsupported ones. -/
theorem unsupportedAddressesByDirection : Obligations.UnsupportedAddressesByDirection := by
  intro s rest a value hmode
  simp only [← readSupported_iff, ← writeSupported_iff]
  constructor
  · intro hr
    exact step_completes_or_faults hmode hr (decodeRequest_read_one _ _) (unsupportedAccess_decodeRead _ a)
  · intro hr
    exact step_completes_or_faults hmode hr rfl (unsupportedAccess_decodeWrite _ a (maskByte value))

end Sys2Proof.Machine
end

section
/-! Decoding under DLAB (30_encoding.md R94, R99): whatever is presented decodes to an event its row admits under DLAB
as it stands, which events change LCR, and O44. -/

namespace Sys2Proof

section
variable {dlab : Bool} {a : Nat}

/-! ### What is decoded is admitted -/

theorem decodeRead_admits (dlab : Bool) (a : Nat) : (decodeRead dlab a).admits dlab = true := by
  match a with
  | 0 | 1 | 2 | 3 | 4 | 5 | 6 => cases dlab <;> rfl
  | a + 7 =>
    rw [decodeRead_of_seven_le dlab (by omega)]
    rfl

theorem decodeWrite_admits (dlab : Bool) (a : Nat) (v : Byte) : (decodeWrite dlab a v).admits dlab = true := by
  match a with
  | 0 | 1 | 2 | 3 | 4 | 5 | 6 => cases dlab <;> rfl
  | a + 7 =>
    rw [decodeWrite_of_seven_le dlab v (by omega)]
    rfl

theorem decodeWord_admits {e : EventWord} {i : Instr} (h : decodeWord dlab e = .ok i) : i.admits dlab = true := by
  simp only [decodeWord] at h
  split_ifs at h <;> cases h
  · exact decodeRead_admits dlab _
  · exact decodeWrite_admits dlab _ _
  all_goals rfl

/-- A request decodes to an event whose row is selected under DLAB (R100). -/
theorem decodeRequest_admits {r : Request} {i : Instr} (h : decodeRequest dlab r = .ok i) : i.admits dlab = true := by
  cases r with
  | word e => exact decodeWord_admits h
  | read width a =>
    simp only [decodeRequest] at h
    split_ifs at h
    cases h
    exact decodeRead_admits dlab a
  | write width a value =>
    simp only [decodeRequest] at h
    split_ifs at h
    cases h
    exact decodeWrite_admits dlab a _
  | receive value | reset | queueReset =>
    cases h
    rfl

/-! ### Addresses from 2 up do not look at DLAB -/

theorem decodeRead_of_two_le (h : 2 ≤ a) (dlab dlab' : Bool) : decodeRead dlab a = decodeRead dlab' a := by
  simp [decodeRead, show a ≠ 0 by omega, show a ≠ 1 by omega]

theorem decodeWrite_of_two_le (h : 2 ≤ a) (dlab dlab' : Bool) (v : Byte) :
    decodeWrite dlab a v = decodeWrite dlab' a v := by
  simp [decodeWrite, show a ≠ 0 by omega, show a ≠ 1 by omega]

end

end Sys2Proof

namespace Sys2Proof.Machine

section
variable {s t : State} {i : Instr}

/-! ### Which events change LCR (10_state.md R23) -/

theorem answer_lcr {r : Response} {u : State} (h : answer r u = .next t) : t.lcr = u.lcr := by
  rw [answer_next h, State.respond_lcr]

theorem unsupportedRegister_lcr {d : Dir} {a : Nat} (h : unsupportedRegister d a s = .next t) : t.lcr = s.lcr := by
  rcases unsupportedRegister_cases s d a with ⟨-, hfault⟩ | ⟨-, hanswer⟩
  · rw [hfault] at h
    cases h
  · exact answer_lcr (hanswer.symm.trans h)

@[simp] theorem setDataReady_lcr (s : State) : (setDataReady s).lcr = s.lcr := rfl
@[simp] theorem clearDataReady_lcr (s : State) : (clearDataReady s).lcr = s.lcr := rfl

@[simp] theorem dropReceived_lcr (s : State) : (dropReceived s).lcr = s.lcr := by
  rw [dropReceived_eq, State.setFifo_lcr]

@[simp] theorem announceRemaining_lcr (s : State) : (announceRemaining s).lcr = s.lcr := by
  rcases announceRemaining_cases s with ⟨-, h⟩ | ⟨-, h⟩ <;> simp [h]

/-- No event but WR.LCR and RST changes LCR. -/
theorem exec_keeps_lcr (h : exec i s = .next t) (hwr : ∀ v, i ≠ .wrLcr v) (hrst : i ≠ .rst) : t.lcr = s.lcr := by
  cases i with
  | wrLcr v => exact absurd rfl (hwr v)
  | rst => exact absurd rfl hrst
  | rdA4 | rdA7 | wrA5 | wrA6 | wrA7 => exact unsupportedRegister_lcr h
  | rdRbr | wrThr | wrIer | rx => exact (answer_lcr h).trans (by simp)
  | rdIir => exact (answer_lcr h).trans (by split <;> simp)
  | rdDll | rdIer | rdDlh | rdLcr | rdLsr | rdMsr => exact answer_lcr h
  | wrDll | wrDlh | wrFcr | wrMcr | qrst => exact (answer_lcr h).trans rfl

theorem exec_wrLcr_lcr {v : Byte} (h : exec (.wrLcr v) s = .next t) : t.lcr = v := answer_lcr h

theorem exec_rst_lcr (h : exec .rst s = .next t) : t.lcr = resetLcr := answer_lcr h

/-! ### The steps on addresses 0 and 1 with DLAB set -/

/-- With DLAB set, a call on address 0 or 1 reads or stores DLL or DLH and does nothing else (30_encoding.md R99). -/
theorem step_on_divisor_latches {rest : List Request} (v : Byte) (hd : s.dlab = true) :
    (s.inputs = .read 1 0 :: rest → step s = .next ((s.setInputs rest).respond (.byte s.dll))) ∧
    (s.inputs = .read 1 1 :: rest → step s = .next ((s.setInputs rest).respond (.byte s.dlh))) ∧
    (s.inputs = .write 1 0 v.toNat :: rest → step s = .next (((s.setInputs rest).setDll v).respond .nothing)) ∧
    (s.inputs = .write 1 1 v.toNat :: rest → step s = .next (((s.setInputs rest).setDlh v).respond .nothing)) := by
  refine ⟨fun hr => ?_, fun hr => ?_, fun hr => ?_, fun hr => ?_⟩
  · exact step_of_inputs (i := .rdDll) hr (by simp [hd, decodeRequest_read_one])
  · exact step_of_inputs (i := .rdDlh) hr (by simp [hd, decodeRequest_read_one])
  · exact step_of_inputs (i := .wrDll v) hr (by simp [hd, decodeRequest_write_one_toNat])
  · exact step_of_inputs (i := .wrDlh v) hr (by simp [hd, decodeRequest_write_one_toNat])

end

/-- Settles O44: with DLAB set the rows of RBR, THR and IER are not admitted, those of DLL and DLH are, and only two
events change LCR. -/
theorem dlabRedirectsTwoAddresses : Obligations.DlabRedirectsTwoAddresses := by
  refine ⟨fun a v ha => ⟨decodeRead_of_two_le ha _ _, decodeWrite_of_two_le ha _ _ v⟩,
    fun s rest v hd => step_on_divisor_latches v hd, fun r i hi => ?unreachable, fun i s t h => ?changes⟩
  case unreachable =>
    have hadm := decodeRequest_admits hi
    refine ⟨?_, ?_, fun v => ?_, fun v => ?_⟩
    all_goals
      rintro rfl
      cases hadm
  case changes =>
    refine ⟨?_, ?_, fun hwr hrst => by rw [exec_keeps_lcr h hwr hrst]⟩
    · rintro v rfl
      rw [exec_wrLcr_lcr h]
    · rintro rfl
      rw [exec_rst_lcr h]
      decide

end Sys2Proof.Machine
end

section
/-! The written value (30_encoding.md R96): what the mask leaves of an integer, the written value of an event word, and
O12. -/

namespace Sys2Proof

theorem maskByte_eq_ofNat (value : Nat) : maskByte value = BitVec.ofNat 8 value := by
  apply BitVec.eq_of_toNat_eq
  rw [maskByte_toNat, BitVec.toNat_ofNat]

/-- A one-byte write of any integer selects the row of its address with the low byte of the integer (R96). -/
theorem decodeRequest_write_one (dlab : Bool) (a value : Nat) :
    decodeRequest dlab (.write 1 a value) = .ok (decodeWrite dlab a (maskByte value)) := rfl

/-- The `D` field of a write word is the written value as it is (R91, R96). -/
theorem decodeWord_write (dlab : Bool) (a : BitVec 3) (v : Byte) :
    decodeWord dlab (mkWord 0x1#4 a v) = .ok (decodeWrite dlab a.toNat v) := by
  simp [decodeWord]

/-- Settles O12: the mask keeps the low byte, a byte has no other bits, and no arm of a faulting write looks at the
value. -/
theorem writtenValuesAreMaskedToEightBits : Obligations.WrittenValuesAreMaskedToEightBits := by
  refine ⟨fun dlab a value => ⟨?masked, ?lowByte⟩, decodeWord_write, fun a v w s => ⟨rfl, rfl, rfl⟩⟩
  case masked =>
    have hmask : value &&& 0xFF = value % 256 := Nat.and_two_pow_sub_one_eq_mod value 8
    rw [decodeRequest_write_one, decodeRequest_write_one, hmask, maskByte_mod]
  case lowByte =>
    rw [decodeRequest_write_one, maskByte_eq_ofNat]

end Sys2Proof
end

section
/-! The storage behind the queue's four ends (40_circular_queue.md R124 to R132): what each of them does to the
capacity, to the indices and to every slot, said once, and O48 to O51. -/

namespace Sys2Proof.Machine.Queue

section
variable {q : Queue} {v : Byte}

/-! ### Indices in a well-formed queue -/

theorem endIdx_lt (h : q.Wf) : q.endIdx < q.capacity := by
  obtain ⟨-, hbegin, hend, -⟩ := h
  rw [hend]
  exact wrap_lt hbegin

theorem sixteen_le_capacity (h : q.Wf) : 16 ≤ q.capacity := by
  obtain ⟨-, -, -, -, hinit, -⟩ := h
  exact hinit

/-- One step back with wraparound (30_encoding.md R106). -/
theorem stepBack_eq {b c : Nat} (hb : b < c) : (b + c - 1) % c = if b = 0 then c - 1 else b - 1 := by
  rw [Nat.add_sub_assoc (by omega), wrap_eq hb (by omega)]
  split_ifs <;> omega

theorem stepBack_lt {b c : Nat} (hb : b < c) : (b + c - 1) % c < c := Nat.mod_lt _ (by omega)

/-- Every slot is the physical slot of some logical position below the capacity (R121). -/
theorem exists_physical_eq {i : Nat} (h : q.Wf) (hi : i < q.capacity) : ∃ k < q.capacity, q.physical k = i := by
  obtain ⟨-, hbegin, -⟩ := h
  by_cases hbi : q.beginIdx ≤ i
  · refine ⟨i - q.beginIdx, by omega, ?_⟩
    rw [physical, Nat.add_sub_cancel' hbi, Nat.mod_eq_of_lt hi]
  · refine ⟨i + q.capacity - q.beginIdx, by omega, ?_⟩
    rw [physical, Nat.add_sub_cancel' (by omega), Nat.add_mod_right, Nat.mod_eq_of_lt hi]

/-- A slot of a well-formed queue that holds no live element holds the sentinel (R121, R132). -/
theorem slot_of_not_live {i : Nat} (h : q.Wf) (hi : i < q.capacity) (hdead : ∀ j < q.len, q.physical j ≠ i) :
    q.slot i = queueEmptyValue := by
  obtain ⟨k, hk, rfl⟩ := exists_physical_eq h hi
  have hlen : q.len ≤ k := not_lt.1 fun hlt => hdead k hlt rfl
  obtain ⟨-, -, -, -, -, hsentinel⟩ := h
  rw [← Nat.add_sub_cancel' hlen]
  exact hsentinel (k - q.len) (by omega)

theorem storage_getElem? {i : Nat} (hi : i < q.capacity) : q.storage[i]? = some (q.slot i) := by
  simp only [capacity] at hi
  simp [slot, hi]

/-! ### A store into one slot -/

theorem store_capacity {e b n l : Nat} : (Queue.mk (q.storage.set e v) b n l).capacity = q.capacity :=
  List.length_set

theorem store_slot {e b n l : Nat} (he : e < q.capacity) (i : Nat) :
    (Queue.mk (q.storage.set e v) b n l).slot i = if i = e then v else q.slot i :=
  getD_set _ _ _ _ he

/-! ### The two checks, one equation per branch (R124, R127) -/

theorem grow_of_lt (h : q.len < q.capacity) : q.grow = q := if_neg h.ne

theorem grow_of_full (h : q.len = q.capacity) : q.grow = q.realloc (2 * q.capacity) := if_pos h

theorem shrinkCheck_of_sparse (h : q.len ≤ q.capacity / 4 / 2 ∧ queueMinCapacity ≤ q.capacity / 4) :
    q.shrinkCheck = q.realloc (q.capacity / 4) := if_pos h

theorem shrinkCheck_of_not_sparse (h : ¬ (q.len ≤ q.capacity / 4 / 2 ∧ queueMinCapacity ≤ q.capacity / 4)) :
    q.shrinkCheck = q := if_neg h

/-! ### The pushes (R124, R125) -/

theorem pushBack_capacity : (q.pushBack v).capacity = q.grow.capacity := store_capacity

theorem pushBack_beginIdx : (q.pushBack v).beginIdx = q.grow.beginIdx := rfl

theorem pushBack_endIdx : (q.pushBack v).endIdx = (q.grow.endIdx + 1) % q.grow.capacity := rfl

theorem pushBack_slot (h : q.Wf) (i : Nat) :
    (q.pushBack v).slot i = if i = q.grow.endIdx then v else q.grow.slot i :=
  store_slot (endIdx_lt (grow_spec h).1) i

theorem pushFront_capacity : (q.pushFront v).capacity = q.grow.capacity := store_capacity

theorem pushFront_beginIdx (h : q.Wf) : (q.pushFront v).beginIdx =
    if q.grow.beginIdx = 0 then q.grow.capacity - 1 else q.grow.beginIdx - 1 := by
  obtain ⟨⟨-, hbegin, -⟩, -⟩ := grow_spec h
  exact stepBack_eq hbegin

theorem pushFront_endIdx : (q.pushFront v).endIdx = q.grow.endIdx := rfl

theorem pushFront_slot (h : q.Wf) (i : Nat) :
    (q.pushFront v).slot i = if i = (q.pushFront v).beginIdx then v else q.grow.slot i := by
  obtain ⟨⟨-, hbegin, -⟩, -⟩ := grow_spec h
  exact store_slot (stepBack_lt hbegin) i

/-! ### The pops (R128, R129) -/

theorem popFront_of_ne (h : q.len ≠ 0) : q.popFront.2 =
    { q.shrinkCheck with
      storage := q.shrinkCheck.storage.set q.shrinkCheck.beginIdx queueEmptyValue
      beginIdx := (q.shrinkCheck.beginIdx + 1) % q.shrinkCheck.capacity
      len := q.shrinkCheck.len - 1 } := by
  rw [popFront, if_neg h]

theorem popFront_capacity (h : q.len ≠ 0) : q.popFront.2.capacity = q.shrinkCheck.capacity := by
  rw [popFront_of_ne h, store_capacity]

theorem popFront_beginIdx (h : q.len ≠ 0) :
    q.popFront.2.beginIdx = (q.shrinkCheck.beginIdx + 1) % q.shrinkCheck.capacity := by
  rw [popFront_of_ne h]

theorem popFront_slot (hw : q.Wf) (h : q.len ≠ 0) (i : Nat) :
    q.popFront.2.slot i = if i = q.shrinkCheck.beginIdx then queueEmptyValue else q.shrinkCheck.slot i := by
  obtain ⟨⟨-, hbegin, -⟩, -⟩ := shrinkCheck_spec hw
  rw [popFront_of_ne h, store_slot hbegin]

theorem popBack_of_ne (h : q.len ≠ 0) : q.popBack.2 =
    { q.shrinkCheck with
      storage := q.shrinkCheck.storage.set
        ((q.shrinkCheck.endIdx + q.shrinkCheck.capacity - 1) % q.shrinkCheck.capacity) queueEmptyValue
      endIdx := (q.shrinkCheck.endIdx + q.shrinkCheck.capacity - 1) % q.shrinkCheck.capacity
      len := q.shrinkCheck.len - 1 } := by
  rw [popBack, if_neg h]

theorem popBack_capacity (h : q.len ≠ 0) : q.popBack.2.capacity = q.shrinkCheck.capacity := by
  rw [popBack_of_ne h, store_capacity]

theorem popBack_beginIdx (h : q.len ≠ 0) : q.popBack.2.beginIdx = q.shrinkCheck.beginIdx := by
  rw [popBack_of_ne h]

theorem popBack_endIdx (hw : q.Wf) (h : q.len ≠ 0) : q.popBack.2.endIdx =
    if q.shrinkCheck.endIdx = 0 then q.shrinkCheck.capacity - 1 else q.shrinkCheck.endIdx - 1 := by
  rw [popBack_of_ne h]
  exact stepBack_eq (endIdx_lt (shrinkCheck_spec hw).1)

theorem popBack_slot (hw : q.Wf) (h : q.len ≠ 0) (i : Nat) :
    q.popBack.2.slot i = if i = q.popBack.2.endIdx then queueEmptyValue else q.shrinkCheck.slot i := by
  have hend := endIdx_lt (shrinkCheck_spec hw).1
  rw [popBack_of_ne h, store_slot (stepBack_lt hend)]

end

end Sys2Proof.Machine.Queue

namespace Sys2Proof.Machine

open Queue

/-- Settles O48: the growth check leaves room, so that the store is at `end`; after it the content starts at slot 0, so
that `end` is the old length. -/
theorem pushBackStoresAtTheEnd : Obligations.PushBackStoresAtTheEnd := by
  refine fun q v hw => ⟨fun hroom => ?room, fun hfull => ?full⟩
  case room => rw [pushBack, grow_of_lt hroom]
  case full =>
    have hinit := sixteen_le_capacity hw
    have hgrow := grow_of_full hfull
    have hcap : (q.realloc (2 * q.capacity)).capacity = 2 * q.capacity := realloc_capacity hw (by omega)
    have hend : (q.realloc (2 * q.capacity)).endIdx = q.len := Nat.mod_eq_of_lt (by omega)
    refine ⟨?_, ?_, ?_, pushBack_len, ?_, fun i hi => ?_⟩
    · rw [pushBack_capacity, hgrow, hcap]
    · rw [pushBack_beginIdx, hgrow, realloc_beginIdx]
    · rw [pushBack_endIdx, hgrow, hcap, hend, Nat.mod_eq_of_lt (by omega)]
    · rw [pushBack_slot hw, hgrow, if_pos hend.symm]
    · rw [pushBack_slot hw, hgrow, hend, if_neg hi.ne, realloc_slot hw, if_pos hi, physical]

/-- Settles O49: the same growth check; after it `begin` is slot 0, so that the step back is to the last slot of the new
storage. -/
theorem pushFrontStoresAtTheBegin : Obligations.PushFrontStoresAtTheBegin := by
  refine fun q v hw => ⟨fun hroom => ⟨_, rfl, ?room⟩, fun hfull => ?full⟩
  case room =>
    obtain ⟨-, hbegin, -⟩ := hw
    rw [pushFront, grow_of_lt hroom, stepBack_eq hbegin]
  case full =>
    have hinit := sixteen_le_capacity hw
    have hgrow := grow_of_full hfull
    have hcap : (q.realloc (2 * q.capacity)).capacity = 2 * q.capacity := realloc_capacity hw (by omega)
    have hbegin : (q.pushFront v).beginIdx = 2 * q.capacity - 1 := by
      rw [pushFront_beginIdx hw, hgrow, hcap, realloc_beginIdx, if_pos rfl]
    refine ⟨?_, hbegin, ?_, pushFront_len, ?_, fun i hi => ?_⟩
    · rw [pushFront_capacity, hgrow, hcap]
    · rw [pushFront_endIdx, hgrow, realloc_endIdx, Nat.mod_eq_of_lt (by omega)]
    · rw [pushFront_slot hw, hbegin, if_pos rfl]
    · rw [pushFront_slot hw, hbegin, if_neg (by omega), hgrow, realloc_slot hw, if_pos hi, physical]

/-- Settles O50: a sparse queue is laid out from slot 0 of its quarter before the removal, which then takes slot 0 or
the slot of the last element; any other keeps its storage. -/
theorem popsShrinkOnlyASparseQueue : Obligations.PopsShrinkOnlyASparseQueue := by
  intro q hw hne
  refine ⟨by rw [popFront_capacity hne, popBack_capacity hne], ?_⟩
  split
  case isTrue hsparse =>
    have hshrink := shrinkCheck_of_sparse hsparse
    obtain ⟨hlen, hmin⟩ := hsparse
    have hcap : (q.realloc (q.capacity / 4)).capacity = q.capacity / 4 := realloc_capacity hw (by omega)
    have hfront : q.popFront.2.capacity = q.capacity / 4 := by rw [popFront_capacity hne, hshrink, hcap]
    have hend : q.popBack.2.endIdx = q.len - 1 := by
      rw [popBack_endIdx hw hne, hshrink, realloc_endIdx, Nat.mod_eq_of_lt (by omega), if_neg hne]
    refine ⟨hfront, by omega, by omega, by omega, ?_, ?_, fun i hi => ?_, fun i hi => ?_⟩
    · rw [popBack_beginIdx hne, hshrink, realloc_beginIdx]
    · rw [popFront_beginIdx hne, hshrink, hcap, realloc_beginIdx, Nat.zero_add, Nat.mod_eq_of_lt (by omega)]
    · rw [popBack_slot hw hne, hend, if_neg hi.ne, hshrink, realloc_slot hw, if_pos (by omega), physical]
    · rw [popFront_slot hw hne, hshrink, realloc_beginIdx, if_neg i.succ_ne_zero, realloc_slot hw,
        if_pos (by omega), physical]
  case isFalse hdense => rw [popFront_capacity hne, shrinkCheck_of_not_sparse hdense]

/-- Settles O51: both pops leave a well-formed queue, and every slot of one is live or holds the sentinel. -/
theorem vacatedSlotsHoldTheSentinel : Obligations.VacatedSlotsHoldTheSentinel := by
  intro q q' i hw hq' hi hdead
  have hw' : q'.Wf := by
    rcases hq' with rfl | rfl
    · exact (popFront_spec hw).1
    · exact (popBack_spec hw).1
  rw [storage_getElem? hi, slot_of_not_live hw' hi hdead, queueEmptyValue]

end Sys2Proof.Machine
end

section
/-! Re-arbitration from NO_INT (41_interrupt_state_machine.md R142, R143): what Resolve reports when IIR reports nothing,
as it is called by Acknowledge, and O34. -/

namespace Sys2Proof.Machine

section
variable (c : Cause)

theorem noInt_ne_code : noInt ≠ code c :=
  fun h => nomatch codeOf_injective none (some c) h

variable {c} in
/-- A pending cause that becomes pending again changes nothing (10_state.md R40). -/
theorem CauseSet.insert_of_mem {x : CauseSet} (h : x.mem c = true) : x.insert c = x := by
  obtain ⟨rlsi, rdi, cti, thri, msi⟩ := x
  cases c <;> cases h <;> rfl

variable {c} in
theorem setInts_insert_of_mem {s : State} (h : s.ints.mem c = true) : s.setInts (s.ints.insert c) = s := by
  rw [CauseSet.insert_of_mem h]
  rfl

variable {s : State} (hiir : s.iir = noInt)
include hiir

/-- From NO_INT nothing outranks CTI, so an enabled CTI that is pending is reported (R140). -/
theorem signalCti_of_noInt (hpending : s.ints.cti = true) (henabled : rdiEnabled s.ier = true) :
    signalCti s = report .cti s := by
  rcases signalCti_cases s with ⟨-, -, -, hreport⟩ | ⟨hdisabled | hrlsi | hrdi, -⟩
  · rw [hreport, setInts_insert_of_mem (c := .cti) hpending]
  · exact absurd henabled (by simp [hdisabled])
  · exact absurd (hiir.symm.trans hrlsi) (noInt_ne_code _)
  · exact absurd (hiir.symm.trans hrdi) (noInt_ne_code _)

/-- From NO_INT an enabled THRI that is pending is reported (R141). -/
theorem signalThri_of_noInt (hpending : s.ints.thri = true) (henabled : thriEnabled s.ier = true) :
    signalThri s = report .thri s := by
  rcases signalThri_cases s with ⟨-, -, hreport⟩ | ⟨hdisabled | ⟨hnot, -, -⟩, -⟩
  · rw [hreport, setInts_insert_of_mem (c := .thri) hpending]
  · exact absurd henabled (by simp [hdisabled])
  · exact absurd hiir hnot

/-- From NO_INT, Resolve reports an enabled pending CTI, else an enabled pending THRI, else withdraws the line
(R142). -/
theorem resolve_of_noInt :
    resolve s =
      if s.ints.cti = true ∧ rdiEnabled s.ier = true then report .cti s
      else if s.ints.thri = true ∧ thriEnabled s.ier = true then report .thri s
      else s.irqClear := by
  rcases resolve_cases s with ⟨hcti, hrdi, h⟩ | ⟨hnoCti, hthri, hen, h⟩ | ⟨hnoCti, hnoThri, h⟩
  · rw [h, signalCti_of_noInt hiir hcti hrdi, if_pos ⟨hcti, hrdi⟩]
  · rw [h, signalThri_of_noInt hiir hthri hen, if_neg (by grind), if_pos ⟨hthri, hen⟩]
  · rw [h, if_neg (by grind), if_neg (by grind), ← hiir]
    rfl

end

/-- Settles O34: Resolve runs only on a match, and then from NO_INT. -/
theorem acknowledgeRearbitratesOnlyOnAMatch : Obligations.AcknowledgeRearbitratesOnlyOnAMatch := by
  refine fun c s => ⟨acknowledge_ints s c, fun hother => ?other, fun hmatch => ?isMatch⟩
  case other =>
    rcases acknowledge_cases s c with ⟨heq, -⟩ | ⟨-, h⟩
    · exact absurd heq hother
    · exact h
  case isMatch =>
    rcases acknowledge_cases s c with ⟨-, h⟩ | ⟨hne, -⟩
    · exact h.trans (resolve_of_noInt rfl)
    · exact absurd hmatch hne

end Sys2Proof.Machine
end

section
/-! The stored registers' reads (42_register_reads.md R161 to R163, R165, R167, R168): an event word written as two
bytes, what a read word decodes to whatever its ignored `D` field holds, and O15. -/

namespace Sys2Proof

/-- The high byte of an event word is its KIND, the reserved bit and its address (30_encoding.md R91). -/
theorem highByte_append_eq_mkWord (k : BitVec 4) (a : BitVec 3) (d : Byte) :
    (k ++ 0#1 ++ a) ++ d = mkWord k a d :=
  (BitVec.append_assoc (x₁ := k ++ 0#1)).trans BitVec.append_assoc

/-- A read word selects the row of its address; its `D` field is not looked at (30_encoding.md R91). -/
theorem decodeWord_read (dlab : Bool) (a : BitVec 3) (d : Byte) :
    decodeWord dlab ((0x0#4 ++ 0#1 ++ a) ++ d) = .ok (decodeRead dlab a.toNat) := by
  rw [highByte_append_eq_mkWord]
  simp [decodeWord]

/-- Settles O15: each word is the read of its address, which DLAB moves at addresses 0 and 1 only, and each of the six
events is one answer that changes no other field. -/
theorem storedRegisterReadsChangeNothing : Obligations.StoredRegisterReadsChangeNothing := by
  refine ⟨fun d => ?words, fun s => ?effects⟩
  case words =>
    refine ⟨decodeWord_read true 0#3 d, decodeWord_read false 1#3 d, decodeWord_read true 1#3 d, fun dlab => ?_⟩
    have hlcr : decodeWord dlab (0x03#8 ++ d) = .ok (decodeRead dlab 3) := decodeWord_read dlab 3#3 d
    have hlsr : decodeWord dlab (0x05#8 ++ d) = .ok (decodeRead dlab 5) := decodeWord_read dlab 5#3 d
    have hmsr : decodeWord dlab (0x06#8 ++ d) = .ok (decodeRead dlab 6) := decodeWord_read dlab 6#3 d
    rw [hlcr, hlsr, hmsr, decodeRead_three, decodeRead_five, decodeRead_six]
    exact ⟨rfl, rfl, rfl⟩
  case effects => exact ⟨rfl, rfl, rfl, rfl, rfl, rfl⟩

end Sys2Proof
end

section
/-! The write words as two bytes (30_encoding.md R91) and the writes that only store (43_register_writes.md R181, R183,
R185, R186): O20. -/

namespace Sys2Proof

/-- A write word selects the row of its address with its `D` field as the written value (30_encoding.md R91, R96). -/
theorem decodeWord_writeBytes (dlab : Bool) (a : BitVec 3) (v : Byte) :
    decodeWord dlab ((0x1#4 ++ 0#1 ++ a) ++ v) = .ok (decodeWrite dlab a.toNat v) := by
  rw [highByte_append_eq_mkWord, decodeWord_write]

/-- Settles O20: each word is the write of its address, which DLAB moves at addresses 0 and 1 only, and each of the four
events is one register update and the empty answer. -/
theorem storeOnlyWritesStoreTheByte : Obligations.StoreOnlyWritesStoreTheByte := by
  refine ⟨fun v => ?words, fun v s => ?effects⟩
  case words =>
    refine ⟨decodeWord_writeBytes true 0#3 v, decodeWord_writeBytes true 1#3 v, fun dlab => ⟨?lcr, ?mcr⟩⟩
    case lcr => exact (decodeWord_writeBytes dlab 3#3 v).trans (congrArg _ (decodeWrite_three dlab v))
    case mcr => exact (decodeWord_writeBytes dlab 4#3 v).trans (congrArg _ (decodeWrite_four dlab v))
  case effects => exact ⟨rfl, rfl, rfl, rfl, rfl⟩

end Sys2Proof
end

section
/-! What the interrupt procedures report from any IIR (41_interrupt_state_machine.md R141, R142), as equations, and the
two writes that run them (43_register_writes.md R180, R182): O22 and O23. -/

namespace Sys2Proof.Machine

section
variable (s : State) (v : Byte)

/-! ### SignalTHRI and Resolve as equations -/

/-- SignalTHRI makes THRI pending, and reports it when it is enabled and IIR holds NO_INT, MSI or THRI (R141). -/
theorem signalThri_eq :
    signalThri s =
      if thriEnabled s.ier = true ∧ (s.iir = noInt ∨ s.iir = code .msi ∨ s.iir = code .thri) then
        report .thri (s.setInts (s.ints.insert .thri))
      else s.setInts (s.ints.insert .thri) := by
  rcases signalThri_cases s with ⟨hen, hiir, h⟩ | ⟨hnot, h⟩
  · rw [h, if_pos ⟨hen, hiir⟩]
  · rw [h, if_neg (by grind)]

/-- Resolve signals an enabled pending CTI, which RLSI and RDI outrank, else an enabled pending THRI, which any report
but MSI and THRI outranks, else withdraws the report (R142). -/
theorem resolve_eq :
    resolve s =
      if s.ints.cti = true ∧ rdiEnabled s.ier = true then
        if s.iir = code .rlsi ∨ s.iir = code .rdi then s else report .cti s
      else if s.ints.thri = true ∧ thriEnabled s.ier = true then
        if s.iir = noInt ∨ s.iir = code .msi ∨ s.iir = code .thri then report .thri s else s
      else (s.setIir noInt).irqClear := by
  rcases resolve_cases s with ⟨hcti, hrdi, h⟩ | ⟨hnoCti, hthri, hen, h⟩ | ⟨hnoCti, hnoThri, h⟩
  · rw [h, if_pos ⟨hcti, hrdi⟩]
    have hsame : s.setInts (s.ints.insert .cti) = s := setInts_insert_of_mem (c := .cti) hcti
    rcases signalCti_cases s with ⟨-, hnotRlsi, hnotRdi, hsignal⟩ | ⟨hdisabled | houtranked, hsignal⟩
    · rw [hsignal, hsame, if_neg (not_or.2 ⟨hnotRlsi, hnotRdi⟩)]
    · simp [hrdi] at hdisabled
    · rw [hsignal, hsame, if_pos houtranked]
  · rw [h, if_neg (by grind), if_pos ⟨hthri, hen⟩, signalThri_eq, setInts_insert_of_mem (c := .thri) hthri]
    simp [hen]
  · rw [h, if_neg (by grind), if_neg (by grind)]

variable {s} in
/-- While IIR holds a code it can take (10_state.md R32) and a reported CTI is pending, Resolve emits one output, but
for a THRI that may not displace a reported CTI: then it does nothing (43_register_writes.md R182 (c)). -/
theorem resolve_emits_one_or_is_silent (hiir : s.iir = noInt ∨ s.iir = code .thri ∨ s.iir = code .cti)
    (hpending : s.iir = code .cti → s.ints.cti = true) :
    (∃ o, (resolve s).out = s.out ++ [o]) ∨
    (resolve s = s ∧ s.iir = code .cti ∧ rdiEnabled s.ier = false ∧ s.ints.thri = true ∧
      thriEnabled s.ier = true) := by
  rw [resolve_eq]
  split_ifs with hcti houtranked hthri hreported
  · have hnot : ¬ (s.iir = code .rlsi ∨ s.iir = code .rdi) := by
      rcases hiir with h | h | h <;> rw [h] <;> decide
    exact absurd houtranked hnot
  · exact .inl ⟨_, report_out s .cti⟩
  · exact .inl ⟨_, report_out s .thri⟩
  · have hiirCti : s.iir = code .cti := by grind
    have hmasked : rdiEnabled s.ier = false := by simpa [hpending hiirCti] using hcti
    exact .inr ⟨rfl, hiirCti, hmasked, hthri⟩
  · exact .inl ⟨_, rfl⟩

/-! ### The bits the writes move -/

/-- A bit that falls and rises again ends up set, the others as they were (R180). -/
theorem setBits_clearBits (r mask : Byte) : setBits (clearBits r mask) mask = setBits r mask := by
  ext i hi
  simp only [setBits, clearBits, BitVec.getElem_or, BitVec.getElem_and, BitVec.getElem_not]
  cases mask[i] <;> simp

/-- The low 4 bits of a written byte reach IER, the two enables among them (10_state.md R31). -/
@[simp] theorem rdiEnabled_ierStored : rdiEnabled (ierStored v) = v.getLsbD 0 := by
  simp [rdiEnabled, ierStored, ierMask]

@[simp] theorem thriEnabled_ierStored : thriEnabled (ierStored v) = v.getLsbD 1 := by
  simp [thriEnabled, ierStored, ierMask]

/-! ### The two writes -/

/-- WR.THR: the fall and rise of THRE inside the event leave it set (R180). -/
theorem exec_wrThr :
    exec (.wrThr v) s = .next ((signalThri ((s.txPut v).setLsr (setBits s.lsr lsrThre))).respond .nothing) := by
  rw [← setBits_clearBits]
  rfl

theorem exec_wrIer : exec (.wrIer v) s = .next ((resolve (s.setIer (ierStored v))).respond .nothing) := rfl

end

/-- Settles O22: WR.THR is SignalTHRI run after the byte went out and THRE was set. -/
theorem wrThrTransmitsThenSignals : Obligations.WrThrTransmitsThenSignals := by
  refine ⟨decodeWord_writeBytes false 0#3, fun v s => ⟨_, exec_wrThr s v, ?lsr, ?ints, ?reported, ?frame⟩⟩
  case lsr => exact signalThri_lsr _
  case ints => exact signalThri_ints _
  case reported =>
    rw [signalThri_eq, State.setLsr_ier, State.txPut_ier, State.setLsr_iir, State.txPut_iir, thriEnabled]
    split_ifs
    · exact ⟨rfl, rfl, List.append_assoc _ _ _⟩
    · exact ⟨rfl, rfl, rfl⟩
  case frame =>
    rw [State.respond_lsr, signalThri_lsr]
    exact congrArg (State.respond · .nothing) (signalThri_frame _)

/-- Settles O23: WR.IER is Resolve run with the low 4 bits stored, and under the invariant Resolve is silent in one
corner only. -/
theorem wrIerStoresAndRearbitrates : Obligations.WrIerStoresAndRearbitrates := by
  refine ⟨decodeWord_writeBytes false 1#3, fun v s => ⟨_, exec_wrIer s v, ?frame, ?arbitrated, fun hinv => ?outputs⟩⟩
  case frame =>
    have hframe := resolve_frame (s.setIer (ierStored v))
    rw [InterruptFrame, resolve_ints] at hframe
    exact congrArg (State.respond · .nothing) hframe
  case arbitrated =>
    rw [resolve_eq, State.setIer_ier, State.setIer_ints, State.setIer_iir, rdiEnabled_ierStored,
      thriEnabled_ierStored]
    split_ifs
    all_goals exact ⟨rfl, rfl, rfl⟩
  case outputs =>
    rcases resolve_emits_one_or_is_silent (s := s.setIer (ierStored v)) hinv.iirCode hinv.ctiPending with
      hone | ⟨hsame, hcti, hmasked, hthri, hen⟩
    · exact .inl hone
    · rw [State.setIer_ier, rdiEnabled_ierStored] at hmasked
      rw [State.setIer_ier, thriEnabled_ierStored] at hen
      exact .inr ⟨congrArg (State.respond · .nothing) hsame, hcti, hmasked, hthri, hen⟩

end Sys2Proof.Machine
end

section
/-! Which events complete (60_exceptions.md R210, R211): O28. -/

namespace Sys2Proof.Machine

/-- Settles O28: an event that makes no unsupported access completes, and one that makes such an access is that
UnsupportedRegister, whose two outcomes are the two modes'. -/
theorem onlyUnsupportedAccessesFail : Obligations.OnlyUnsupportedAccessesFail := by
  refine ⟨fun i s hnone => exec_completes hnone s, fun i s d a hsome => ?unsupported⟩
  case unsupported =>
    rw [exec_unsupported hsome s]
    rcases unsupportedRegister_cases s d a with ⟨-, hfault⟩ | ⟨-, herror⟩
    · exact .inl hfault
    · exact .inr herror

end Sys2Proof.Machine
end

section
/-! What the register accesses acknowledge (60_exceptions.md R227): the reported cause after an acknowledgement that
finds another one in IIR, the two sides of a read of IIR, and O35. -/

namespace Sys2Proof.Machine

section
variable {s : State}

/-! ### The report after an acknowledgement of another cause -/

/-- Acknowledging a cause that is not the reported one erases the report (41_interrupt_state_machine.md R143). -/
theorem acknowledge_iir_of_ne {c : Cause} (h : s.iir ≠ code c) : (acknowledge c s).iir = noInt := by
  rcases acknowledge_cases s c with ⟨hmatch, -⟩ | ⟨-, hack⟩
  · exact absurd hmatch h
  · rw [hack, State.setIir_iir]

/-- Of two acknowledgements of causes that are not reported, the second finds NO_INT and leaves it. -/
theorem acknowledge_acknowledge_iir_of_ne {c : Cause} (h : s.iir ≠ code c) (c' : Cause) :
    (acknowledge c' (acknowledge c s)).iir = noInt := by
  apply acknowledge_iir_of_ne
  rw [acknowledge_iir_of_ne h]
  exact noInt_ne_code c'

/-- In every mode the acknowledgement of a read of address 0 erases the report of a cause other than RDI and CTI
(R144). -/
theorem acknowledgeRbr_iir_of_ne (hrdi : s.iir ≠ code .rdi) (hcti : s.iir ≠ code .cti) :
    (acknowledgeRbr s).iir = noInt := by
  unfold acknowledgeRbr
  split
  · exact acknowledge_acknowledge_iir_of_ne hrdi .cti
  · exact acknowledge_acknowledge_iir_of_ne hcti .rdi
  · rcases acknowledgeJoint_cases s with ⟨hrdi' | hcti', -⟩ | ⟨-, hjoint⟩
    · exact absurd hrdi' hrdi
    · exact absurd hcti' hcti
    · rw [hjoint, State.setIir_iir]

/-! ### The read of IIR -/

/-- A read of IIR that reports THRI acknowledges it (42_register_reads.md R164). -/
theorem exec_rdIir_of_thri (h : s.iir = code .thri) :
    exec .rdIir s = .next ((acknowledge .thri s).respond (.byte (iirImage s.iir))) := by
  simp [exec, execRdIir, answer, h]

/-- A read of IIR that does not report THRI only answers (R164). -/
theorem exec_rdIir_of_ne (h : s.iir ≠ code .thri) :
    exec .rdIir s = .next (s.respond (.byte (iirImage s.iir))) := by
  simp [exec, execRdIir, answer, h]

end

/-- Settles O35: a read of IIR is an acknowledgement of THRI or an answer only; the acknowledgement of a read of
address 0 is that of RDI and CTI in every mode; reads of LSR and MSR only answer; WR.THR ends in SignalTHRI. -/
theorem whatAcknowledgesWhat : Obligations.WhatAcknowledgesWhat := by
  refine ⟨fun s t h => ?rdIir, fun s => ⟨acknowledgeRbr_ints s, acknowledgeRbr_iir_of_ne⟩, fun s t h => ?rdStatus,
    fun v s t h => ?wrThr⟩
  case rdIir =>
    by_cases hthri : s.iir = code .thri
    · rw [exec_rdIir_of_thri hthri] at h
      cases h
      simp [hthri]
    · rw [exec_rdIir_of_ne hthri] at h
      cases h
      exact ⟨fun heq => absurd heq hthri, fun _ => ⟨rfl, rfl⟩, rfl⟩
  case rdStatus => rcases h with h | h <;> cases h <;> exact ⟨rfl, rfl⟩
  case wrThr =>
    rw [exec_wrThr] at h
    cases h
    simp

end Sys2Proof.Machine
end

section
/-! The encoding (30_encoding.md R91 to R103): which words spell which event, as one inversion lemma, the canonical
word of what a word or an address decodes to, and O7 to O9, O13 and O14. -/

namespace Sys2Proof

section
variable {dlab : Bool} {e : EventWord} {i : Instr}

/-! ### Which words spell which event -/

/-- A read word selects the row of its address, whatever its ignored `D` field holds (R91, R103). -/
theorem decodeWord_readWord (dlab : Bool) (a : BitVec 3) (d : Byte) :
    decodeWord dlab (mkWord 0x0#4 a d) = .ok (decodeRead dlab a.toNat) := by
  simp [decodeWord]

theorem decodeWord_rxWord (dlab : Bool) (b : Byte) : decodeWord dlab (mkWord 0x2#4 0#3 b) = .ok (.rx b) := by
  simp [decodeWord]

theorem decodeWord_rstWord (dlab : Bool) : decodeWord dlab (mkWord 0x3#4 0#3 0#8) = .ok .rst := by
  simp [decodeWord]

theorem decodeWord_qrstWord (dlab : Bool) : decodeWord dlab (mkWord 0x4#4 0#3 0#8) = .ok .qrst := by
  simp [decodeWord]

/-- The words that spell an event under a DLAB, with the event (R91, R92, R103). -/
inductive Spells (dlab : Bool) : EventWord → Instr → Prop
  | read (a : BitVec 3) (d : Byte) : Spells dlab (mkWord 0x0#4 a d) (decodeRead dlab a.toNat)
  | write (a : BitVec 3) (v : Byte) : Spells dlab (mkWord 0x1#4 a v) (decodeWrite dlab a.toNat v)
  | rx (b : Byte) : Spells dlab (mkWord 0x2#4 0#3 b) (.rx b)
  | rst : Spells dlab (mkWord 0x3#4 0#3 0#8) .rst
  | qrst : Spells dlab (mkWord 0x4#4 0#3 0#8) .qrst

/-- A word whose reserved bit is 0 is made of its fields, named. -/
theorem eq_mkWord {k : BitVec 4} (hk : (kindField e).toNat = k.toNat) (hz : zField e = 0#1) :
    e = mkWord k (addrField e) (dataField e) := by
  rw [← BitVec.eq_of_toNat_eq hk, mkWord_fields e hz]

/-- The decoder reads exactly what the words spell. -/
theorem decodeWord_eq_ok : decodeWord dlab e = .ok i ↔ Spells dlab e i := by
  constructor
  · intro h
    simp only [decodeWord] at h
    split_ifs at h with hkind hz h0 h1 ha h2 hd h3 <;> cases h
    all_goals rw [not_ne_iff] at hz
    · have hread := Spells.read (dlab := dlab) (addrField e) (dataField e)
      rwa [← eq_mkWord (k := 0x0#4) h0 hz] at hread
    · have hwrite := Spells.write (dlab := dlab) (addrField e) (dataField e)
      rwa [← eq_mkWord (k := 0x1#4) h1 hz] at hwrite
    all_goals rw [not_ne_iff] at ha
    · have hrx := Spells.rx (dlab := dlab) (dataField e)
      rwa [← ha, ← eq_mkWord (k := 0x2#4) h2 hz] at hrx
    all_goals rw [not_ne_iff] at hd
    · have hrst := Spells.rst (dlab := dlab)
      rwa [← ha, ← hd, ← eq_mkWord (k := 0x3#4) h3 hz] at hrst
    · have hqrst := Spells.qrst (dlab := dlab)
      rwa [← ha, ← hd, ← eq_mkWord (k := 0x4#4) (show _ = 4 by omega) hz] at hqrst
  · rintro (⟨a, d⟩ | ⟨a, v⟩ | b | _ | _)
    · exact decodeWord_readWord dlab a d
    · exact decodeWord_write dlab a v
    · exact decodeWord_rxWord dlab b
    · exact decodeWord_rstWord dlab
    · exact decodeWord_qrstWord dlab

/-- The decoder refuses a word for its KIND, its reserved bit, a stray address or stray data, and for nothing else
(R103). -/
theorem decodeWord_error_iff :
    (∃ why, decodeWord dlab e = .error why) ↔
      5 ≤ (kindField e).toNat ∨ zField e ≠ 0#1 ∨
        (addrField e ≠ 0#3 ∧ ((kindField e).toNat = 2 ∨ (kindField e).toNat = 3 ∨ (kindField e).toNat = 4)) ∨
        (dataField e ≠ 0#8 ∧ ((kindField e).toNat = 3 ∨ (kindField e).toNat = 4)) := by
  simp only [decodeWord]
  split_ifs <;> grind

/-! ### The fields and the word as numbers (R91) -/

theorem kindField_toNat (e : EventWord) : (kindField e).toNat = e.toNat / 4096 := by
  have := e.isLt
  simp only [kindField, BitVec.extractLsb'_toNat, Nat.shiftRight_eq_div_pow]
  omega

theorem addrField_toNat (e : EventWord) : (addrField e).toNat = e.toNat / 256 % 8 := by
  simp [addrField, Nat.shiftRight_eq_div_pow]

theorem zField_toNat (e : EventWord) : (zField e).toNat = e.toNat / 2048 % 2 := by
  simp [zField, Nat.shiftRight_eq_div_pow]

theorem dataField_toNat (e : EventWord) : (dataField e).toNat = e.toNat % 256 := by
  simp [dataField]

theorem zField_ne_zero : zField e ≠ 0#1 ↔ e.getLsbD 11 = true := by
  rw [zField, ne_eq, BitVec.eq_of_getLsbD_eq_iff]
  simp

theorem mkWord_toNat (k : BitVec 4) (a : BitVec 3) (d : Byte) :
    (mkWord k a d).toNat = 0x1000 * k.toNat + 0x100 * a.toNat + d.toNat := by
  have hk := kindField_toNat (mkWord k a d)
  have hz := zField_toNat (mkWord k a d)
  have ha := addrField_toNat (mkWord k a d)
  have hd := dataField_toNat (mkWord k a d)
  rw [kindField_mkWord] at hk
  rw [zField_mkWord, BitVec.toNat_zero] at hz
  rw [addrField_mkWord] at ha
  rw [dataField_mkWord] at hd
  omega

/-! ### The canonical word of what is decoded -/

theorem encode_decodeRead (dlab : Bool) (a : Nat) :
    encode (decodeRead dlab a) = mkWord 0x0#4 (BitVec.ofNat 3 a) 0x00#8 := by
  match a with
  | 0 | 1 | 2 | 3 | 4 | 5 | 6 => cases dlab <;> rfl
  | a + 7 => rw [decodeRead_of_seven_le dlab (by omega), encode]

theorem encode_decodeWrite (dlab : Bool) (a : Nat) (v : Byte) :
    encode (decodeWrite dlab a v) = mkWord 0x1#4 (BitVec.ofNat 3 a) v := by
  match a with
  | 0 | 1 | 2 | 3 | 4 | 5 | 6 => cases dlab <;> rfl
  | a + 7 => rw [decodeWrite_of_seven_le dlab v (by omega), encode]

theorem decodeRead_wf (dlab : Bool) (a : Nat) : (decodeRead dlab a).wf = true := by
  match a with
  | 0 | 1 | 2 | 3 | 4 | 5 | 6 => cases dlab <;> rfl
  | a + 7 =>
    rw [decodeRead_of_seven_le dlab (by omega), Instr.wf]
    exact decide_eq_true (by omega)

theorem decodeWrite_wf (dlab : Bool) (a : Nat) (v : Byte) : (decodeWrite dlab a v).wf = true := by
  match a with
  | 0 | 1 | 2 | 3 | 4 | 5 | 6 => cases dlab <;> rfl
  | a + 7 =>
    rw [decodeWrite_of_seven_le dlab v (by omega), Instr.wf]
    exact decide_eq_true (by omega)

theorem decodeRead_hasWord (dlab : Bool) {a : Nat} (h : a < 8) : (decodeRead dlab a).hasWord = true := by
  match a with
  | 0 | 1 | 2 | 3 | 4 | 5 | 6 | 7 => cases dlab <;> rfl

theorem decodeWrite_hasWord (dlab : Bool) {a : Nat} (h : a < 8) (v : Byte) :
    (decodeWrite dlab a v).hasWord = true := by
  match a with
  | 0 | 1 | 2 | 3 | 4 | 5 | 6 | 7 => cases dlab <;> rfl

/-! ### Keys and table words (R94) -/

theorem decodeKey_append (dlab : Bool) (e : EventWord) : decodeKey (BitVec.ofBool dlab ++ e) = decodeWord dlab e := by
  rw [decodeKey, BitVec.setWidth_append_eq_right]
  congr 1
  rw [BitVec.getLsbD_append]
  simp

theorem decodeTableWord_toNat {nbits : Nat} {k : Key} (h : decodeKey k = .ok i) :
    decodeTableWord nbits k.toNat = some i := by
  rw [decodeTableWord, if_pos k.isLt, BitVec.ofNat_toNat, BitVec.setWidth_eq, h]

/-! ### Decoding inverts encoding -/

/-- The canonical word of an event that has one spells it, under the DLAB its row admits (R92, R100). -/
theorem spells_encode (hwf : i.wf = true) (hword : i.hasWord = true) (hadm : i.admits dlab = true) :
    Spells dlab (encode i) i := by
  cases i with
  | rdA7 a =>
    simp only [Instr.wf, Instr.hasWord, decide_eq_true_eq] at hwf hword
    obtain rfl : a = 7 := by omega
    cases dlab <;> exact .read 7#3 0#8
  | wrA7 a v =>
    simp only [Instr.wf, Instr.hasWord, decide_eq_true_eq] at hwf hword
    obtain rfl : a = 7 := by omega
    cases dlab <;> exact .write 7#3 v
  | rdRbr | rdDll =>
    cases dlab <;> cases hadm
    exact .read 0#3 0#8
  | rdIer | rdDlh =>
    cases dlab <;> cases hadm
    exact .read 1#3 0#8
  | rdIir => cases dlab <;> exact .read 2#3 0#8
  | rdLcr => cases dlab <;> exact .read 3#3 0#8
  | rdA4 => cases dlab <;> exact .read 4#3 0#8
  | rdLsr => cases dlab <;> exact .read 5#3 0#8
  | rdMsr => cases dlab <;> exact .read 6#3 0#8
  | wrThr v | wrDll v =>
    cases dlab <;> cases hadm
    exact .write 0#3 v
  | wrIer v | wrDlh v =>
    cases dlab <;> cases hadm
    exact .write 1#3 v
  | wrFcr v => cases dlab <;> exact .write 2#3 v
  | wrLcr v => cases dlab <;> exact .write 3#3 v
  | wrMcr v => cases dlab <;> exact .write 4#3 v
  | wrA5 v => cases dlab <;> exact .write 5#3 v
  | wrA6 v => cases dlab <;> exact .write 6#3 v
  | rx b => exact .rx b
  | rst => exact .rst
  | qrst => exact .qrst

end

/-- Settles O7: the canonical word spells its event, a key decodes as its word does, and a table word as its key. -/
theorem decodingInvertsEncoding : Obligations.DecodingInvertsEncoding := by
  intro i dlab hwf hword hadm
  have hdecode : decodeWord dlab (encode i) = .ok i := decodeWord_eq_ok.2 (spells_encode hwf hword hadm)
  have hkey : decodeKey (encodeKey dlab i) = .ok i := (decodeKey_append dlab (encode i)).trans hdecode
  exact ⟨hdecode, hkey, decodeTableWord_toNat hkey⟩

/-- Settles O8: by the ways a word can spell an event. -/
theorem eachWordIsItsEventsWord : Obligations.EachWordIsItsEventsWord := by
  intro dlab e i h
  refine ⟨?_, ?_, decodeWord_admits h, ?_⟩
  all_goals cases decodeWord_eq_ok.1 h
  case refine_1.read a d => exact decodeRead_wf dlab _
  case refine_1.write a v => exact decodeWrite_wf dlab _ v
  case refine_2.read a d => exact decodeRead_hasWord dlab a.isLt
  case refine_2.write a v => exact decodeWrite_hasWord dlab a.isLt v
  case refine_3.read a d => simp [encode_decodeRead]
  case refine_3.write a v => simp [encode_decodeWrite]
  all_goals simp [Instr.wf, Instr.hasWord, encode]

/-- Settles O9: the decoder's reasons, with the fields read as digits of the word. -/
theorem wordsThatSpellNoEvent : Obligations.WordsThatSpellNoEvent := by
  intro dlab e
  rw [decodeWord_error_iff, zField_ne_zero, ne_eq, ne_eq, ← BitVec.toNat_inj, ← BitVec.toNat_inj, kindField_toNat,
    addrField_toNat, dataField_toNat]
  rfl

end Sys2Proof
end

section
/-! Calls and words (00_scope.md R9, R12; 30_encoding.md R92, R96): the word of a call, the agent of an event, and O13
and O14. -/

namespace Sys2Proof

section
variable {dlab : Bool} {i : Instr}

/-! ### The word of a call -/

/-- A word is made of the digits of its number (R91). -/
theorem ofNat_eq_mkWord {k a d : Nat} (ha : a < 8) (hd : d < 256) :
    BitVec.ofNat 16 (0x1000 * k + 0x100 * a + d) = mkWord (BitVec.ofNat 4 k) (BitVec.ofNat 3 a) (BitVec.ofNat 8 d) := by
  apply BitVec.eq_of_toNat_eq
  rw [mkWord_toNat]
  simp only [BitVec.toNat_ofNat]
  omega

theorem decodeRequest_word (dlab : Bool) (e : EventWord) : decodeRequest dlab (.word e) = decodeWord dlab e := rfl

/-- The call `read(a)` is the word `0x0a00` (R92). -/
theorem decodeRequest_read_eq_word {a : Nat} (ha : a < 8) :
    decodeRequest dlab (.read 1 a) = decodeRequest dlab (.word (BitVec.ofNat 16 (0x100 * a))) := by
  have hword := ofNat_eq_mkWord (k := 0) (d := 0) ha (by omega)
  rw [Nat.mul_zero, Nat.zero_add, Nat.add_zero] at hword
  rw [hword, decodeRequest_word, decodeWord_readWord, decodeRequest_read_one, BitVec.toNat_ofNat,
    Nat.mod_eq_of_lt (by omega)]

/-- The call `write(a, v)` of a byte is the word `0x1a00 | v` (R92). -/
theorem decodeRequest_write_eq_word {a v : Nat} (ha : a < 8) (hv : v < 256) :
    decodeRequest dlab (.write 1 a v) = decodeRequest dlab (.word (BitVec.ofNat 16 (0x1000 + 0x100 * a + v))) := by
  have hword := ofNat_eq_mkWord (k := 1) ha hv
  rw [Nat.mul_one] at hword
  rw [hword, decodeRequest_word, decodeWord_write, decodeRequest_write_one, maskByte_eq_ofNat, BitVec.toNat_ofNat,
    Nat.mod_eq_of_lt (by omega)]

/-- A received integer reaches RX as its low byte (R96, R97). -/
theorem decodeRequest_receive (value : Nat) :
    decodeRequest dlab (.receive value) = .ok (.rx (BitVec.ofNat 8 value)) := by
  rw [decodeRequest, maskByte_eq_ofNat]

/-- The call `receive_byte(b)` is the word `0x2000` with the low byte of `b` (R92). -/
theorem decodeRequest_receive_eq_word (b : Nat) :
    decodeRequest dlab (.receive b) = decodeRequest dlab (.word (BitVec.ofNat 16 (0x2000 + b % 256))) := by
  have hword := ofNat_eq_mkWord (k := 2) (a := 0) (d := b % 256) (by omega) (by omega)
  rw [Nat.mul_zero, Nat.add_zero] at hword
  rw [hword, decodeRequest_word, decodeWord_rxWord, decodeRequest, ← maskByte_mod, maskByte_eq_ofNat]

/-! ### Who issues an event (00_scope.md R9) -/

/-- The agent whose event it is: received bytes are the receive source's, resets the host's, accesses the bus
master's. -/
def Instr.issuer : Instr → Agent
  | .rx _ => .receiveSource
  | .rst | .qrst => .host
  | _ => .busMaster

theorem issuer_decodeRead (dlab : Bool) (a : Nat) : (decodeRead dlab a).issuer = .busMaster := by
  match a with
  | 0 | 1 | 2 | 3 | 4 | 5 | 6 => cases dlab <;> rfl
  | a + 7 =>
    rw [decodeRead_of_seven_le dlab (by omega)]
    rfl

theorem issuer_decodeWrite (dlab : Bool) (a : Nat) (v : Byte) : (decodeWrite dlab a v).issuer = .busMaster := by
  match a with
  | 0 | 1 | 2 | 3 | 4 | 5 | 6 => cases dlab <;> rfl
  | a + 7 =>
    rw [decodeWrite_of_seven_le dlab v (by omega)]
    rfl

/-- A word is presented by the agent of the event it spells with DLAB clear. -/
theorem agent_word {e : EventWord} (h : decodeWord false e = .ok i) : (Request.word e).agent = some i.issuer := by
  rw [Request.agent, h]
  cases i <;> rfl

/-- A request is presented by the agent of its event, whatever DLAB (R9, R230). -/
theorem agent_of_decodes {r : Request} (h : decodeRequest dlab r = .ok i) : r.agent = some i.issuer := by
  cases r with
  | word e =>
    cases decodeWord_eq_ok.1 h with
    | read a d => rw [agent_word (decodeWord_readWord false a d), issuer_decodeRead, issuer_decodeRead]
    | write a v => rw [agent_word (decodeWord_write false a v), issuer_decodeWrite, issuer_decodeWrite]
    | rx b => exact agent_word (decodeWord_rxWord false b)
    | rst => exact agent_word (decodeWord_rstWord false)
    | qrst => exact agent_word (decodeWord_qrstWord false)
  | read width a =>
    simp only [decodeRequest] at h
    split_ifs at h
    cases h
    rw [issuer_decodeRead, Request.agent]
  | write width a value =>
    simp only [decodeRequest] at h
    split_ifs at h
    cases h
    rw [issuer_decodeWrite, Request.agent]
  | receive value | reset | queueReset =>
    cases h
    rfl

theorem issuer_eq_receiveSource : i.issuer = .receiveSource ↔ ∃ b, i = .rx b := by
  cases i <;> simp [Instr.issuer]

theorem issuer_eq_host : i.issuer = .host ↔ i = .rst ∨ i = .qrst := by
  cases i <;> simp [Instr.issuer]

theorem issuer_eq_busMaster : i.issuer = .busMaster ↔ (∀ b, i ≠ .rx b) ∧ i ≠ .rst ∧ i ≠ .qrst := by
  cases i <;> simp [Instr.issuer]

end

/-- Settles O13: each call is the word of its digits, and `RST` and `QRST` are one word each. -/
theorem callsAndWordsAskForTheSameEvents : Obligations.CallsAndWordsAskForTheSameEvents := by
  refine ⟨fun dlab a ha => decodeRequest_read_eq_word ha, fun dlab a v ha hv => decodeRequest_write_eq_word ha hv,
    fun dlab b => ⟨decodeRequest_receive b, decodeRequest_receive_eq_word b⟩, fun dlab => ⟨?rst, ?qrst⟩⟩
  case rst => exact (decodeWord_rstWord dlab).symm
  case qrst => exact (decodeWord_qrstWord dlab).symm

/-- Settles O14: the agent of a request is the issuer of its event. -/
theorem agentsIssueOnlyTheirOwnEvents : Obligations.AgentsIssueOnlyTheirOwnEvents := by
  intro dlab r i h
  rw [agent_of_decodes h, Option.some_inj, Option.some_inj, Option.some_inj]
  exact ⟨issuer_eq_receiveSource, issuer_eq_host, issuer_eq_busMaster⟩

end Sys2Proof
end

section
/-! The opcode map (30_encoding.md R94, R100): what selecting a row says of a key's fields, which row the fields
select, and O10. -/

namespace Sys2Proof

section
variable {r r' : OpcodeRow} {k : Key}

/-! ### A row and the fields of a key -/

theorem selects_iff : r.selects k = true ↔ k &&& r.mask = r.pattern := by simp [OpcodeRow.selects]

/-- Of two rows that one key selects, each pattern agrees with the other's mask. -/
theorem patterns_agree (h : r.selects k = true) (h' : r'.selects k = true) :
    r.pattern &&& r'.mask = r'.pattern &&& r.mask := by
  rw [selects_iff] at h h'
  rw [← h, ← h', BitVec.and_assoc, BitVec.and_assoc, BitVec.and_comm r.mask]

/-- A key that selects a row has the row's value in every field the row's mask covers. -/
theorem field_of_selects {start len : Nat} (h : r.selects k = true)
    (hmask : r.mask.extractLsb' start len = BitVec.allOnes len) :
    k.extractLsb' start len = r.pattern.extractLsb' start len := by
  rw [← selects_iff.1 h, BitVec.extractLsb'_and, hmask, BitVec.and_allOnes]

/-- A key is its DLAB bit and its event word (R94). -/
theorem key_eq_append (k : Key) : k = BitVec.ofBool (k.getLsbD 16) ++ k.setWidth 16 := by
  ext j hj
  rw [← BitVec.getLsbD_eq_getElem, ← BitVec.getLsbD_eq_getElem, BitVec.getLsbD_append]
  split_ifs with h
  · simp [h]
  · obtain rfl : j = 16 := by omega
    simp

/-- A row whose mask leaves out the `D` field does not look at it. -/
theorem selects_of_data_masked (dlab : Bool) (kind : BitVec 4) (a : BitVec 3) (d : Byte)
    (hmask : r.mask.extractLsb' 0 8 = 0#8) :
    r.selects (BitVec.ofBool dlab ++ mkWord kind a d) = r.selects (BitVec.ofBool dlab ++ mkWord kind a 0x00#8) := by
  have hbits : (BitVec.ofBool dlab ++ mkWord kind a d) &&& r.mask =
      (BitVec.ofBool dlab ++ mkWord kind a 0x00#8) &&& r.mask := by
    ext j hj
    rw [BitVec.getElem_and, BitVec.getElem_and]
    by_cases hlow : j < 8
    · have hzero := congrArg (·.getLsbD j) hmask
      simp only [BitVec.getLsbD_extractLsb', hlow, decide_true, Nat.zero_add, Bool.true_and,
        BitVec.getLsbD_zero] at hzero
      rw [← BitVec.getLsbD_eq_getElem (x := r.mask), hzero, Bool.and_false, Bool.and_false]
    · congr 1
      rw [← BitVec.getLsbD_eq_getElem, ← BitVec.getLsbD_eq_getElem, BitVec.getLsbD_append, BitVec.getLsbD_append]
      simp only [mkWord, BitVec.getLsbD_append, hlow, if_false]
  rw [OpcodeRow.selects, OpcodeRow.selects, hbits]

/-! ### The rows as they are written out (R100) -/

/-- Any two rows disagree somewhere both masks cover. -/
theorem rows_disagree : ∀ r ∈ opcodeRows, ∀ r' ∈ opcodeRows,
    r.pattern &&& r'.mask = r'.pattern &&& r.mask → r = r' := by decide

/-- Every mask covers KIND, the reserved bit and the address, and every pattern has the reserved bit clear. -/
theorem rows_cover_fields : ∀ r ∈ opcodeRows,
    r.mask.extractLsb' 12 4 = BitVec.allOnes 4 ∧ r.mask.extractLsb' 11 1 = BitVec.allOnes 1 ∧
    r.mask.extractLsb' 8 3 = BitVec.allOnes 3 ∧ r.pattern.extractLsb' 11 1 = 0#1 := by decide

theorem readRows_spec : ∀ r ∈ readRows,
    r.pattern.extractLsb' 12 4 = 0x0#4 ∧
    ∀ dlab : Bool, (r.mask.getLsbD 16 = true → dlab = r.pattern.getLsbD 16) →
      (decodeRead dlab (r.pattern.extractLsb' 8 3).toNat).mnemonic = r.mnemonic := by decide

theorem writeRows_spec : ∀ r ∈ writeRows,
    r.pattern.extractLsb' 12 4 = 0x1#4 ∧
    ∀ dlab : Bool, (r.mask.getLsbD 16 = true → dlab = r.pattern.getLsbD 16) →
      (decodeWrite dlab (r.pattern.extractLsb' 8 3).toNat 0x00#8).mnemonic = r.mnemonic := by decide

theorem readRows_select : ∀ (dlab : Bool) (a : BitVec 3), ∃ r ∈ readRows, r.mask.extractLsb' 0 8 = 0#8 ∧
    r.selects (BitVec.ofBool dlab ++ mkWord 0x0#4 a 0x00#8) = true ∧
    r.mnemonic = (decodeRead dlab a.toNat).mnemonic := by decide

theorem writeRows_select : ∀ (dlab : Bool) (a : BitVec 3), ∃ r ∈ writeRows, r.mask.extractLsb' 0 8 = 0#8 ∧
    r.selects (BitVec.ofBool dlab ++ mkWord 0x1#4 a 0x00#8) = true ∧
    r.mnemonic = (decodeWrite dlab a.toNat 0x00#8).mnemonic := by decide

/-! ### From a selected row to the event, and back -/

/-- The word of a key that selects a row: the row's KIND and address, the reserved bit clear, and any `D`. -/
theorem word_of_selects (hr : r ∈ opcodeRows) (h : r.selects k = true) :
    k.setWidth 16 =
      mkWord (r.pattern.extractLsb' 12 4) (r.pattern.extractLsb' 8 3) (dataField (k.setWidth 16)) := by
  obtain ⟨hkindMask, hzMask, haddrMask, hz⟩ := rows_cover_fields r hr
  rw [← field_of_selects h hkindMask, ← field_of_selects h haddrMask]
  rw [← field_of_selects h hzMask] at hz
  have hfields := mkWord_fields (k.setWidth 16) ((BitVec.extractLsb'_setWidth_of_le (by omega)).trans hz)
  rw [kindField, addrField, BitVec.extractLsb'_setWidth_of_le (by omega),
    BitVec.extractLsb'_setWidth_of_le (by omega)] at hfields
  exact hfields.symm

theorem dlab_of_selects (h : r.selects k = true) (hmask : r.mask.getLsbD 16 = true) :
    k.getLsbD 16 = r.pattern.getLsbD 16 := by
  rw [← selects_iff.1 h, BitVec.getLsbD_and, hmask, Bool.and_true]

theorem mnemonic_decodeWrite (dlab : Bool) (a : Nat) (v w : Byte) :
    (decodeWrite dlab a v).mnemonic = (decodeWrite dlab a w).mnemonic := by
  match a with
  | 0 | 1 | 2 | 3 | 4 | 5 | 6 => cases dlab <;> rfl
  | a + 7 =>
    rw [decodeWrite_of_seven_le dlab v (by omega), decodeWrite_of_seven_le dlab w (by omega)]
    rfl

/-- The event a key decodes to when it selects a row: the row's (R100). -/
theorem decodes_of_selects (hr : r ∈ opcodeRows) (h : r.selects k = true) :
    ∃ i, decodeKey k = .ok i ∧ i.mnemonic = r.mnemonic := by
  have hword := word_of_selects hr h
  rw [decodeKey, hword]
  rw [opcodeRows, List.mem_append, List.mem_append] at hr
  rcases hr with (hread | hwrite) | hexternal
  · obtain ⟨hkind, hrow⟩ := readRows_spec r hread
    rw [hkind, decodeWord_readWord]
    exact ⟨_, rfl, hrow _ (dlab_of_selects h)⟩
  · obtain ⟨hkind, hrow⟩ := writeRows_spec r hwrite
    rw [hkind, decodeWord_write]
    exact ⟨_, rfl, (mnemonic_decodeWrite _ _ _ _).trans (hrow _ (dlab_of_selects h))⟩
  · have hdata (hmask : r.mask.extractLsb' 0 8 = BitVec.allOnes 8) :
        dataField (k.setWidth 16) = r.pattern.extractLsb' 0 8 :=
      (BitVec.extractLsb'_setWidth_of_le (by omega)).trans (field_of_selects h hmask)
    simp only [externalRows, List.mem_cons, List.not_mem_nil, or_false] at hexternal
    rcases hexternal with rfl | rfl | rfl
    · exact ⟨_, decodeWord_rxWord _ _, rfl⟩
    · rw [hdata (by decide)]
      exact ⟨_, decodeWord_rstWord _, rfl⟩
    · rw [hdata (by decide)]
      exact ⟨_, decodeWord_qrstWord _, rfl⟩

/-- The row a decoded key selects (R100). -/
theorem selects_of_decodes {i : Instr} (h : decodeKey k = .ok i) :
    ∃ r ∈ opcodeRows, r.selects k = true ∧ r.mnemonic = i.mnemonic := by
  rw [key_eq_append k, decodeKey_append] at h
  rw [key_eq_append k]
  generalize k.getLsbD 16 = dlab at h
  generalize k.setWidth 16 = e at h
  cases decodeWord_eq_ok.1 h with
  | read a d =>
    obtain ⟨r, hr, hmask, hsel, hmn⟩ := readRows_select dlab a
    exact ⟨r, by simp [opcodeRows, hr], (selects_of_data_masked dlab _ a d hmask).trans hsel, hmn⟩
  | write a v =>
    obtain ⟨r, hr, hmask, hsel, hmn⟩ := writeRows_select dlab a
    exact ⟨r, by simp [opcodeRows, hr], (selects_of_data_masked dlab _ a v hmask).trans hsel,
      hmn.trans (mnemonic_decodeWrite dlab _ _ _)⟩
  | rx b =>
    refine ⟨⟨"RX", 0x02000#17, 0x0FF00#17⟩, by decide, ?_, rfl⟩
    rw [selects_of_data_masked dlab _ _ b (by decide)]
    cases dlab <;> decide
  | rst => exact ⟨⟨"RST", 0x03000#17, 0x0FFFF#17⟩, by decide, by cases dlab <;> decide, rfl⟩
  | qrst => exact ⟨⟨"QRST", 0x04000#17, 0x0FFFF#17⟩, by decide, by cases dlab <;> decide, rfl⟩

end

/-- Settles O10: any two rows differ in a bit both look at; a selected row fixes the fields that decide the event; and
the fields of a decoded key select a row. -/
theorem opcodeMapSelectsTheDecodedRow : Obligations.OpcodeMapSelectsTheDecodedRow := by
  refine ⟨rfl, fun k => ⟨fun r hr r' hr' h h' => ?_, fun r hr => decodes_of_selects hr,
    fun i => selects_of_decodes⟩⟩
  exact rows_disagree r hr r' hr' (patterns_agree h h')

end Sys2Proof
end

section
/-! The outputs of an event (10_state.md R43, 60_exceptions.md section 2): which outputs each operation appends and
what they say of the line and of the report, said once, and O37, O40, O41 and O43. -/

namespace Sys2Proof.Machine

/-- The outputs `l` account for an operation from `s` to `t` that puts out at most `n` of them and transmits the bytes
`sent`: they are appended in order, they move the line, they name this port's line, a new report comes with a raise,
and a last clear leaves no report. The operation takes no request and changes no parameter. -/
structure Emission (n : Nat) (sent : List Byte) (s t : State) (l : List Output) : Prop where
  out : t.out = s.out ++ l
  bounded : l.length ≤ n
  transmits : transmitted l = sent
  line : t.irq = lineAfter s.irq l
  names : ∀ o ∈ l, ∀ k, o = .raise k ∨ o = .clear k → k = s.params.irqLine
  reports : t.iir ≠ s.iir → t.iir ≠ noInt → .raise s.params.irqLine ∈ l
  withdraws : lineAfter true l = false → t.iir = noInt
  inputs : t.inputs = s.inputs
  params : t.params = s.params

/-- Some outputs account for the operation. -/
def Emits (n : Nat) (sent : List Byte) (s t : State) : Prop := ∃ l, Emission n sent s t l

section
variable {n m : Nat} {b c : List Byte} {s t u : State} {l k : List Output}

/-! ### One operation after another -/

/-- After a raise the line does not remember its level before (R43). -/
theorem lineAfter_of_raise_mem {j : Nat} (h : Output.raise j ∈ l) (x y : Bool) : lineAfter x l = lineAfter y l := by
  induction l generalizing x y with
  | nil => cases h
  | cons o l ih =>
    cases o with
    | tx b =>
      have h' : Output.raise j ∈ l := by simpa using h
      exact ih h' x y
    | raise | clear => rfl

theorem Emission.append (h : Emission n b s t l) (h' : Emission m c t u k) :
    Emission (n + m) (b ++ c) s u (l ++ k) where
  out := by rw [h'.out, h.out, List.append_assoc]
  bounded := by
    rw [List.length_append]
    exact Nat.add_le_add h.bounded h'.bounded
  transmits := by rw [transmitted_append, h.transmits, h'.transmits]
  line := by rw [lineAfter_append, ← h.line, h'.line]
  names o ho := by
    rcases List.mem_append.1 ho with ho | ho
    · exact h.names o ho
    · exact h.params ▸ h'.names o ho
  reports hnew hiir := by
    rw [List.mem_append]
    by_cases hlast : u.iir = t.iir
    · rw [hlast] at hnew hiir
      exact .inl (h.reports hnew hiir)
    · exact .inr (h.params ▸ h'.reports hlast hiir)
  withdraws hlow := by
    rw [lineAfter_append] at hlow
    by_contra hiir
    have hhigh : lineAfter true k = true := by simpa using mt h'.withdraws hiir
    by_cases hsame : u.iir = t.iir
    · have hline : lineAfter true l = true := by simpa using mt h.withdraws (hsame ▸ hiir)
      rw [hline, hhigh] at hlow
      cases hlow
    · rw [lineAfter_of_raise_mem (h'.reports hsame hiir) _ true, hhigh] at hlow
      cases hlow
  inputs := h'.inputs.trans h.inputs
  params := h'.params.trans h.params

theorem Emits.trans (h : Emits n b s t) (h' : Emits m c t u) : Emits (n + m) (b ++ c) s u := by
  obtain ⟨l, hl⟩ := h
  obtain ⟨k, hk⟩ := h'
  exact ⟨l ++ k, hl.append hk⟩

theorem Emits.mono (h : Emits n b s t) (hnm : n ≤ m) : Emits m b s t := by
  obtain ⟨l, hl⟩ := h
  exact ⟨l, { hl with bounded := hl.bounded.trans hnm }⟩

/-! ### The named updates -/

/-- An operation that writes neither the line nor the outputs, and IIR only with NO_INT, puts out nothing. -/
theorem Emits.of_silent (hout : t.out = s.out) (hirq : t.irq = s.irq) (hiir : t.iir = s.iir ∨ t.iir = noInt)
    (hinputs : t.inputs = s.inputs) (hparams : t.params = s.params) : Emits 0 [] s t :=
  ⟨[], {
    out := by rw [hout, List.append_nil]
    bounded := le_rfl
    transmits := rfl
    line := hirq
    names := fun o ho => nomatch ho
    reports := fun hnew hne => absurd hiir (not_or.2 ⟨hnew, hne⟩)
    withdraws := fun h => nomatch h
    inputs := hinputs
    params := hparams }⟩

theorem setInts_emits (x : CauseSet) : Emits 0 [] s (s.setInts x) := .of_silent rfl rfl (.inl rfl) rfl rfl

theorem setLsr_emits (v : Byte) : Emits 0 [] s (s.setLsr v) := .of_silent rfl rfl (.inl rfl) rfl rfl

theorem setFifo_emits (q : Queue) : Emits 0 [] s (s.setFifo q) := .of_silent rfl rfl (.inl rfl) rfl rfl

theorem setIer_emits (v : Byte) : Emits 0 [] s (s.setIer v) := .of_silent rfl rfl (.inl rfl) rfl rfl

theorem withdrawn_emits (x : CauseSet) : Emits 0 [] s ((s.setInts x).setIir noInt) :=
  .of_silent rfl rfl (.inr rfl) rfl rfl

theorem respond_emits (r : Response) : Emits 0 [] s (s.respond r) := .of_silent rfl rfl (.inl rfl) rfl rfl

theorem report_emits (c : Cause) : Emits 1 [] s (report c s) :=
  ⟨[.raise s.params.irqLine], {
    out := rfl
    bounded := le_rfl
    transmits := rfl
    line := rfl
    names := by simp
    reports := fun _ _ => List.mem_singleton_self _
    withdraws := fun h => nomatch h
    inputs := rfl
    params := rfl }⟩

theorem irqClear_emits : Emits 1 [] s ((s.setIir noInt).irqClear) :=
  ⟨[.clear s.params.irqLine], {
    out := rfl
    bounded := le_rfl
    transmits := rfl
    line := rfl
    names := by simp
    reports := fun _ h => absurd rfl h
    withdraws := fun _ => rfl
    inputs := rfl
    params := rfl }⟩

theorem txPut_emits (v : Byte) : Emits 1 [v] s (s.txPut v) :=
  ⟨[.tx v], {
    out := rfl
    bounded := le_rfl
    transmits := rfl
    line := rfl
    names := by simp
    reports := fun h => absurd rfl h
    withdraws := fun h => nomatch h
    inputs := rfl
    params := rfl }⟩

/-! ### The interrupt procedures (41_interrupt_state_machine.md R140 to R146) -/

variable (s)

theorem signalCti_emits : Emits 1 [] s (signalCti s) := by
  rcases signalCti_cases s with ⟨-, -, -, h⟩ | ⟨-, h⟩ <;> rw [h]
  · exact (setInts_emits _).trans (report_emits .cti)
  · exact (setInts_emits _).mono zero_le_one

theorem signalThri_emits : Emits 1 [] s (signalThri s) := by
  rcases signalThri_cases s with ⟨-, -, h⟩ | ⟨-, h⟩ <;> rw [h]
  · exact (setInts_emits _).trans (report_emits .thri)
  · exact (setInts_emits _).mono zero_le_one

theorem resolve_emits : Emits 1 [] s (resolve s) := by
  rcases resolve_cases s with ⟨-, -, h⟩ | ⟨-, -, -, h⟩ | ⟨-, -, h⟩ <;> rw [h]
  · exact signalCti_emits s
  · exact signalThri_emits s
  · exact irqClear_emits

theorem acknowledge_emits (c : Cause) : Emits 1 [] s (acknowledge c s) := by
  rcases acknowledge_cases s c with ⟨-, h⟩ | ⟨-, h⟩ <;> rw [h]
  · exact (withdrawn_emits _).trans (resolve_emits _)
  · exact (withdrawn_emits _).mono zero_le_one

theorem acknowledgeJoint_emits : Emits 1 [] s (acknowledgeJoint s) := by
  rcases acknowledgeJoint_cases s with ⟨-, h⟩ | ⟨-, h⟩ <;> rw [h]
  · exact (withdrawn_emits _).trans (resolve_emits _)
  · exact (withdrawn_emits _).mono zero_le_one

theorem acknowledgeRbr_emits : Emits 2 [] s (acknowledgeRbr s) := by
  unfold acknowledgeRbr
  split
  · exact (acknowledge_emits s .rdi).trans (acknowledge_emits _ .cti)
  · exact (acknowledge_emits s .cti).trans (acknowledge_emits _ .rdi)
  · exact (acknowledgeJoint_emits s).mono one_le_two

theorem dropReceived_emits : Emits 0 [] s (dropReceived s) := by
  rw [dropReceived_eq]
  exact setFifo_emits _

theorem announceRemaining_emits : Emits 1 [] s (announceRemaining s) := by
  rcases announceRemaining_cases s with ⟨-, h⟩ | ⟨-, h⟩ <;> rw [h]
  · exact (setLsr_emits _).trans (signalCti_emits _)
  · exact (setLsr_emits _).mono zero_le_one

/-! ### Every event -/

variable {s}

theorem answer_emits {r : Response} (h : answer r u = .next t) (hu : Emits n b s u) : Emits n b s t := by
  rw [answer_next h]
  simpa using hu.trans (respond_emits r)

/-- An unsupported access that completes only answers the error (60_exceptions.md R211). -/
theorem unsupportedRegister_next {d : Dir} {a : Nat} (h : unsupportedRegister d a s = .next t) :
    t = s.respond (.error d a) := by
  rcases unsupportedRegister_cases s d a with ⟨-, hfault⟩ | ⟨-, hanswer⟩
  · cases hfault.symm.trans h
  · cases hanswer.symm.trans h
    rfl

theorem unsupportedRegister_emits {d : Dir} {a : Nat} (h : unsupportedRegister d a s = .next t) : Emits 0 [] s t := by
  rw [unsupportedRegister_next h]
  exact respond_emits _

/-- The outputs of an event account for it: at most three, and the byte it transmits is the one written to THR (R146,
R180). -/
theorem exec_emits {i : Instr} (h : exec i s = .next t) : Emits 3 (bytesSent i) s t := by
  cases i with
  | rdA4 | rdA7 | wrA5 | wrA6 | wrA7 => exact (unsupportedRegister_emits h).mono (by decide)
  | rdRbr =>
    exact answer_emits h
      (((acknowledgeRbr_emits s).trans (dropReceived_emits _)).trans (announceRemaining_emits _))
  | rdIir =>
    refine (answer_emits h (n := 1) ?_).mono (by decide)
    split
    · exact acknowledge_emits s .thri
    · exact .mono (.of_silent rfl rfl (.inl rfl) rfl rfl) zero_le_one
  | wrThr v =>
    exact (answer_emits h (((setLsr_emits _).trans (txPut_emits v)).trans
      ((setLsr_emits _).trans (signalThri_emits _)))).mono (by decide)
  | wrIer v => exact (answer_emits h ((setIer_emits _).trans (resolve_emits _))).mono (by decide)
  | rx v =>
    exact (answer_emits h (((setFifo_emits _).trans (setLsr_emits _)).trans (signalCti_emits _))).mono (by decide)
  | rst => exact (answer_emits (s := s) h (.of_silent rfl rfl (.inr rfl) rfl rfl)).mono (Nat.zero_le 3)
  | rdDll | rdIer | rdDlh | rdLcr | rdLsr | rdMsr | wrDll | wrDlh | wrFcr | wrLcr | wrMcr | qrst =>
    exact (answer_emits (s := s) h (.of_silent rfl rfl (.inl rfl) rfl rfl)).mono (Nat.zero_le 3)

/-- The outputs of a step account for it, from the state with the request taken. -/
theorem step_emits (h : step s = .next t) :
    ∃ r rest i, s.inputs = r :: rest ∧ Emits 3 (bytesSent i) (s.setInputs rest) t := by
  obtain ⟨r, rest, i, hinputs, -, hexec⟩ := step_next s h
  exact ⟨r, rest, i, hinputs, exec_emits hexec⟩

end

/-- Settles O40: the outputs of the step move the line and name it, as those before it did. -/
theorem lineFollowsTheOutputs : Obligations.LineFollowsTheOutputs := by
  rintro s t ⟨hirq, hnames⟩ h
  obtain ⟨r, rest, i, -, l, hl⟩ := step_emits h
  constructor
  · rw [hl.line, hl.out, lineAfter_append]
    exact congrArg (lineAfter · l) hirq
  · intro o ho k hk
    rw [hl.params]
    rw [hl.out, List.mem_append] at ho
    rcases ho with ho | ho
    · exact hnames o ho k hk
    · exact hl.names o ho k hk

/-- Settles O37: read off the account of the event's outputs. -/
theorem reportsRaiseAndClearsWithdraw : Obligations.ReportsRaiseAndClearsWithdraw := by
  intro i s t h
  obtain ⟨l, hl⟩ := exec_emits h
  exact ⟨l, hl.out, hl.line, hl.reports, hl.withdraws⟩

/-- Settles O41: read off the account of the step's outputs, which holds from the state with the request taken. -/
theorem stepTakesOneRequestAndAppends : Obligations.StepTakesOneRequestAndAppends := by
  intro s t h
  obtain ⟨r, rest, i, hinputs, l, hl⟩ := step_emits h
  exact ⟨⟨r, by rw [hinputs, hl.inputs, State.setInputs_inputs]⟩, hl.params, l, hl.out, hl.bounded⟩

/-- Settles O43: of the outputs of an event only a byte written to THR goes to the byte sink. -/
theorem transmitsExactlyWhatIsWritten : Obligations.TransmitsExactlyWhatIsWritten := by
  intro i s t h
  obtain ⟨l, hl⟩ := exec_emits h
  rw [hl.out, transmitted_append, hl.transmits]

end Sys2Proof.Machine
end

section
/-! What no event reads (10_state.md section 4, 20_memory.md section 1): every operation of an event does the same
under another line level, another output history and another base address, and O45 and O53. -/

namespace Sys2Proof.Machine

/-- The state with another line level, another output history and another base address. -/
def State.moved (s : State) (b : Bool) (o : List Output) (base : Nat) : State :=
  { s with irq := b, out := o, params := { s.params with uartBase := base } }

/-- The operation reads neither the line level nor the output history nor the base address: under any others it does
the same, and appends the same outputs. -/
def Blind (f : State → State) : Prop :=
  ∀ s b o base, ∃ l, (f s).out = s.out ++ l ∧
    f (s.moved b o base) = (f s).moved (lineAfter b l) (o ++ l) base

@[simp] theorem moved_inputs (s : State) (b : Bool) (o : List Output) (base : Nat) :
    (s.moved b o base).inputs = s.inputs := rfl

@[simp] theorem moved_dlab (s : State) (b : Bool) (o : List Output) (base : Nat) :
    (s.moved b o base).dlab = s.dlab := rfl

section
variable {f g : State → State}

/-! ### How operations are put together -/

theorem Blind.comp (hf : Blind f) (hg : Blind g) : Blind (fun s => g (f s)) := by
  intro s b o base
  obtain ⟨l, hout, hmoved⟩ := hf s b o base
  obtain ⟨k, hout', hmoved'⟩ := hg (f s) (lineAfter b l) (o ++ l) base
  refine ⟨l ++ k, by simp only [hout', hout, List.append_assoc], ?_⟩
  simp only [hmoved, hmoved', lineAfter_append, List.append_assoc]

theorem Blind.ite {p : State → Prop} [DecidablePred p] (hp : ∀ s b o base, p (s.moved b o base) ↔ p s)
    (hf : Blind f) (hg : Blind g) : Blind (fun s => if p s then f s else g s) := by
  intro s b o base
  simp only [hp]
  split
  · exact hf s b o base
  · exact hg s b o base

/-- An operation that puts nothing out and writes other fields only is blind. -/
theorem Blind.of_silent (hout : ∀ s, (f s).out = s.out)
    (hmoved : ∀ s b o base, f (s.moved b o base) = (f s).moved b o base) : Blind f :=
  fun s b o base => ⟨[], by rw [hout, List.append_nil], by rw [hmoved, List.append_nil, lineAfter]⟩

theorem Blind.id : Blind (fun s => s) := .of_silent (fun _ => rfl) (fun _ _ _ _ => rfl)

/-! ### The operations of Machine/Ops.lean -/

theorem blind_report (c : Cause) : Blind (report c) := fun s _ _ _ => ⟨[.raise s.params.irqLine], rfl, rfl⟩

theorem blind_irqClear : Blind State.irqClear := fun s _ _ _ => ⟨[.clear s.params.irqLine], rfl, rfl⟩

theorem blind_txPut (v : Byte) : Blind (·.txPut v) := fun _ _ _ _ => ⟨[.tx v], rfl, rfl⟩

theorem blind_setIer (v : Byte) : Blind (·.setIer v) := .of_silent (fun _ => rfl) (fun _ _ _ _ => rfl)

theorem blind_setIir (v : Byte) : Blind (·.setIir v) := .of_silent (fun _ => rfl) (fun _ _ _ _ => rfl)

theorem blind_insert (c : Cause) : Blind (fun s => s.setInts (s.ints.insert c)) :=
  .of_silent (fun _ => rfl) (fun _ _ _ _ => rfl)

theorem blind_erase (c : Cause) : Blind (fun s => s.setInts (s.ints.erase c)) :=
  .of_silent (fun _ => rfl) (fun _ _ _ _ => rfl)

theorem blind_setDataReady : Blind setDataReady := .of_silent (fun _ => rfl) (fun _ _ _ _ => rfl)

theorem blind_clearDataReady : Blind clearDataReady := .of_silent (fun _ => rfl) (fun _ _ _ _ => rfl)

theorem blind_signalCti : Blind signalCti :=
  (blind_insert .cti).comp
    (g := fun s => if rdiEnabled s.ier = false then s
      else if s.iir ≠ code .rlsi ∧ s.iir ≠ code .rdi then report .cti s else s)
    (.ite (fun _ _ _ _ => .rfl) .id (.ite (fun _ _ _ _ => .rfl) (blind_report .cti) .id))

theorem blind_signalThri : Blind signalThri :=
  (blind_insert .thri).comp
    (g := fun s => if thriEnabled s.ier = false then s
      else if s.iir = noInt ∨ s.iir = code .msi ∨ s.iir = code .thri then report .thri s else s)
    (.ite (fun _ _ _ _ => .rfl) .id (.ite (fun _ _ _ _ => .rfl) (blind_report .thri) .id))

theorem blind_resolve : Blind resolve := by
  unfold resolve
  exact .ite (fun _ _ _ _ => .rfl) blind_signalCti
    (.ite (fun _ _ _ _ => .rfl) blind_signalThri ((blind_setIir noInt).comp blind_irqClear))

theorem blind_acknowledge (c : Cause) : Blind (acknowledge c) := by
  unfold acknowledge
  have hwithdraw := (blind_erase c).comp (blind_setIir noInt)
  exact .ite (fun _ _ _ _ => .rfl) (hwithdraw.comp blind_resolve) hwithdraw

theorem blind_acknowledgeJoint : Blind acknowledgeJoint := by
  unfold acknowledgeJoint
  have hwithdraw := ((blind_erase .rdi).comp (blind_erase .cti)).comp (blind_setIir noInt)
  exact .ite (fun _ _ _ _ => .rfl) (hwithdraw.comp blind_resolve) hwithdraw

theorem blind_acknowledgeRbr : Blind acknowledgeRbr := by
  intro s b o base
  unfold acknowledgeRbr
  rw [show (s.moved b o base).params.rbrAckMode = s.params.rbrAckMode from rfl]
  split
  · exact (blind_acknowledge .rdi).comp (blind_acknowledge .cti) s b o base
  · exact (blind_acknowledge .cti).comp (blind_acknowledge .rdi) s b o base
  · exact blind_acknowledgeJoint s b o base

theorem blind_dropReceived : Blind dropReceived := by
  unfold dropReceived
  exact .ite (fun _ _ _ _ => .rfl) .id (.of_silent (fun _ => rfl) (fun _ _ _ _ => rfl))

theorem blind_announceRemaining : Blind announceRemaining := by
  unfold announceRemaining
  exact .ite (fun _ _ _ _ => .rfl) blind_clearDataReady (blind_setDataReady.comp blind_signalCti)

/-! ### Every event -/

variable {s t : State} {i : Instr} {b : Bool} {o : List Output} {base : Nat}

/-- The byte a read of the receive buffer answers is the same. -/
theorem receiveByte_moved :
    receiveByte (acknowledgeRbr (s.moved b o base)) = receiveByte (acknowledgeRbr s) := by
  simp only [receiveByte, acknowledgeRbr_fifo, acknowledgeRbr_params]
  rfl

theorem answer_moved {r r' : Response} (hf : Blind f) (h : answer r (f s) = .next t) (hr : r' = r) :
    ∃ l, t.out = s.out ++ l ∧
      answer r' (f (s.moved b o base)) = .next (t.moved (lineAfter b l) (o ++ l) base) := by
  obtain ⟨l, hout, hmoved⟩ := hf s b o base
  rw [hmoved, answer_next h, hr]
  exact ⟨l, hout, rfl⟩

theorem unsupportedRegister_moved {d : Dir} {a : Nat} (h : unsupportedRegister d a s = .next t) :
    ∃ l, t.out = s.out ++ l ∧
      unsupportedRegister d a (s.moved b o base) = .next (t.moved (lineAfter b l) (o ++ l) base) := by
  rcases unsupportedRegister_cases s d a with ⟨-, hfault⟩ | ⟨hmode, hanswer⟩
  · cases hfault.symm.trans h
  · have hmode' : (s.moved b o base).params.unsupportedMode = .errorReturn := hmode
    rw [unsupportedRegister, hmode']
    exact answer_moved .id (hanswer.symm.trans h) rfl

/-- An event that completes does the same, and appends the same outputs, whatever the line, the history and the base.
-/
theorem exec_moved (h : exec i s = .next t) (b : Bool) (o : List Output) (base : Nat) :
    ∃ l, t.out = s.out ++ l ∧ exec i (s.moved b o base) = .next (t.moved (lineAfter b l) (o ++ l) base) := by
  cases i with
  | rdA4 | rdA7 | wrA5 | wrA6 | wrA7 => exact unsupportedRegister_moved h
  | rdRbr =>
    have hf := (blind_acknowledgeRbr.comp blind_dropReceived).comp blind_announceRemaining
    exact answer_moved hf h (congrArg _ receiveByte_moved)
  | rdIir =>
    have hf : Blind (fun s => if s.iir = code .thri then acknowledge .thri s else s) :=
      .ite (fun _ _ _ _ => .rfl) (blind_acknowledge .thri) .id
    have hmoved := answer_moved (b := b) (o := o) (base := base) hf h rfl
    exact hmoved
  | wrThr v =>
    have hlow : Blind (fun s => s.setLsr (clearBits s.lsr lsrThre)) := .of_silent (fun _ => rfl) (fun _ _ _ _ => rfl)
    have hhigh : Blind (fun s => s.setLsr (setBits s.lsr lsrThre)) := .of_silent (fun _ => rfl) (fun _ _ _ _ => rfl)
    exact answer_moved (((hlow.comp (blind_txPut v)).comp hhigh).comp blind_signalThri) h rfl
  | wrIer v => exact answer_moved ((blind_setIer _).comp blind_resolve) h rfl
  | rx v =>
    have hpush : Blind (fun s => s.setFifo (s.fifo.pushBack v)) := .of_silent (fun _ => rfl) (fun _ _ _ _ => rfl)
    exact answer_moved ((hpush.comp blind_setDataReady).comp blind_signalCti) h rfl
  | rdDll | rdIer | rdDlh | rdLcr | rdLsr | rdMsr => exact answer_moved .id h rfl
  | wrDll | wrDlh | wrFcr | wrLcr | wrMcr | rst | qrst =>
    cases h
    exact ⟨[], (List.append_nil _).symm, by rw [List.append_nil]; rfl⟩

/-- An event completes, or it makes an unsupported access under `UNSUPPORTED_MODE = FAULT` and faults
(60_exceptions.md R210, R211). -/
theorem exec_completes_or_faults (i : Instr) (s : State) :
    (∃ t, exec i s = .next t) ∨
    ∃ d a, s.params.unsupportedMode = .fault ∧ unsupportedAccess i = some (d, a) ∧
      exec i s = .fault (.unsupportedRegister d a) := by
  cases hacc : unsupportedAccess i with
  | none => exact .inl (exec_completes hacc s)
  | some da =>
    obtain ⟨d, a⟩ := da
    rw [exec_unsupported hacc]
    rcases unsupportedRegister_cases s d a with ⟨hmode, hfault⟩ | ⟨-, hanswer⟩
    · exact .inr ⟨d, a, hmode, rfl, hfault⟩
    · exact .inl ⟨_, hanswer⟩

/-- An event that faults does so whatever the line, the history and the base. -/
theorem exec_moved_fault {e : Fault} (h : exec i s = .fault e) : exec i (s.moved b o base) = .fault e := by
  rcases exec_completes_or_faults i s with ⟨t, ht⟩ | ⟨d, a, hmode, hacc, hfault⟩
  · cases ht.symm.trans h
  · cases hfault.symm.trans h
    rw [exec_unsupported hacc, unsupportedRegister_of_fault (s := s.moved b o base) hmode]

end

/-- Settles O45: every operation of an event is blind to the line and to the history. -/
theorem outputsAreNeverRead : Obligations.OutputsAreNeverRead := by
  intro i s b o
  refine ⟨fun t h => ?_, fun f h => exec_moved_fault (base := s.params.uartBase) h⟩
  obtain ⟨l, hout, hmoved⟩ := exec_moved h b o s.params.uartBase
  obtain ⟨k, hemits⟩ := exec_emits h
  refine ⟨l, hout, hmoved.trans ?_⟩
  rw [State.moved, ← hemits.params]

section
variable {s t : State} {base : Nat}

/-! ### Every step -/

theorem exec_ne_refused {i : Instr} {w : Refusal} : exec i s ≠ .refused w := by
  intro h
  rcases exec_completes_or_faults i s with ⟨t, ht⟩ | ⟨d, a, -, -, hfault⟩
  · cases ht.symm.trans h
  · cases hfault.symm.trans h

/-- An event that completes does the same under another base. -/
theorem exec_base {i : Instr} (h : exec i s = .next t) :
    exec i (s.moved s.irq s.out base) = .next (t.moved t.irq t.out base) := by
  obtain ⟨l, hout, hmoved⟩ := exec_moved h s.irq s.out base
  obtain ⟨k, hemits⟩ := exec_emits h
  obtain rfl : l = k := List.append_cancel_left (hout.symm.trans hemits.out)
  rw [hmoved, ← hemits.line, ← hout]

/-- Taking the next event does not look at the base. -/
theorem nextEvent_moved {b : Bool} {o : List Output} :
    nextEvent (s.moved b o base) = (nextEvent s).map (fun e => (e.1, e.2.moved b o base)) := by
  unfold nextEvent
  rw [moved_inputs, moved_dlab]
  cases s.inputs with
  | nil => rfl
  | cons r rest => cases hdecode : decodeRequest s.dlab r <;> simp only [hdecode] <;> rfl

/-- A step on another base ends as the step on this one does, with the base kept. -/
theorem step_base :
    (∀ t, step s = .next t → step (s.moved s.irq s.out base) = .next (t.moved t.irq t.out base)) ∧
    (∀ f, step s = .fault f → step (s.moved s.irq s.out base) = .fault f) ∧
    (∀ w, step s = .refused w → step (s.moved s.irq s.out base) = .refused w) := by
  cases hnext : nextEvent s with
  | error w => simp [step, nextEvent_moved, hnext, Except.map]
  | ok e =>
    obtain ⟨r, rest, -, -, htaken⟩ := nextEvent_ok s hnext
    have hbase : e.2.moved s.irq s.out base = e.2.moved e.2.irq e.2.out base := by rw [htaken]; rfl
    have hstep : step s = exec e.1 e.2 := by rw [step, hnext]
    have hmoved : step (s.moved s.irq s.out base) = exec e.1 (e.2.moved e.2.irq e.2.out base) := by
      rw [step, nextEvent_moved, hnext, ← hbase]
      rfl
    rw [hstep, hmoved]
    exact ⟨fun t => exec_base, fun f => exec_moved_fault, fun w h => absurd h exec_ne_refused⟩

end

/-- Settles O53: the dispatcher subtracts the base before a request is presented, and neither taking an event nor any
of its operations looks at it. -/
theorem stepsSeeRegisterAddressesOnly : Obligations.StepsSeeRegisterAddressesOnly := by
  refine ⟨registerAddr_eq_some, fun p width a value => ?inside, fun p width sys value hlow => ?below,
    fun s base => step_base⟩
  case inside =>
    have haddr : registerAddr p (p.uartBase + a) = some a := (registerAddr_eq_some p _ a).2 rfl
    simp [busRead, busWrite, haddr]
  case below =>
    have haddr : registerAddr p sys = none := if_neg (by omega)
    simp [busRead, busWrite, haddr]

end Sys2Proof.Machine
end

section
/-! The invariants of the reachable states (10_state.md section 7): every operation of an event keeps them, and O2,
O38 and O39. -/

namespace Sys2Proof.Machine

section
variable {s t : State}

/-! ### The invariant and the named updates -/

theorem reset_inv : State.reset.Inv :=
  ⟨by decide, by decide, by decide, by decide, by decide, by decide, by decide, by decide, by decide⟩

/-- A state that reports nothing need not account for a report: the other items suffice. -/
theorem State.Inv.of_noInt (h : s.Inv) (hier : t.ier = s.ier) (hiir : t.iir = noInt)
    (hints : t.ints.rlsi = false ∧ t.ints.rdi = false ∧ t.ints.msi = false) (hlsr : t.lsr = s.lsr)
    (hmsr : t.msr = s.msr) (hfifo : t.fifo = s.fifo) : t.Inv where
  ierHigh := hier ▸ h.ierHigh
  iirCode := .inl hiir
  intsOnly := hints
  lsrBits := hlsr ▸ h.lsrBits
  msrReset := hmsr ▸ h.msrReset
  ctiPending hcti := absurd (hiir.symm.trans hcti) (noInt_ne_code _)
  thriPending hthri := absurd (hiir.symm.trans hthri) (noInt_ne_code _)
  lineUp hne := absurd hiir hne
  fifoWf := hfifo ▸ h.fifoWf

theorem State.Inv.insert_cti (h : s.Inv) : (s.setInts (s.ints.insert .cti)).Inv :=
  { h with ctiPending := fun _ => rfl }

theorem State.Inv.insert_thri (h : s.Inv) : (s.setInts (s.ints.insert .thri)).Inv :=
  { h with thriPending := fun _ => rfl }

theorem State.Inv.report_cti (h : s.Inv) (hpending : s.ints.cti = true) : (report .cti s).Inv :=
  { h with
    iirCode := .inr (.inr rfl)
    ctiPending := fun _ => hpending
    thriPending := fun heq => nomatch codeOf_injective (some .cti) (some .thri) heq
    lineUp := fun _ => rfl }

theorem State.Inv.report_thri (h : s.Inv) (hpending : s.ints.thri = true) : (report .thri s).Inv :=
  { h with
    iirCode := .inr (.inl rfl)
    ctiPending := fun heq => nomatch codeOf_injective (some .thri) (some .cti) heq
    thriPending := fun _ => hpending
    lineUp := fun _ => rfl }

/-! ### The interrupt procedures (41_interrupt_state_machine.md R140 to R144) -/

theorem State.Inv.signalCti (h : s.Inv) : (signalCti s).Inv := by
  rcases signalCti_cases s with ⟨-, -, -, hsignal⟩ | ⟨-, hsignal⟩ <;> rw [hsignal]
  · exact h.insert_cti.report_cti rfl
  · exact h.insert_cti

theorem State.Inv.signalThri (h : s.Inv) : (signalThri s).Inv := by
  rcases signalThri_cases s with ⟨-, -, hsignal⟩ | ⟨-, hsignal⟩ <;> rw [hsignal]
  · exact h.insert_thri.report_thri rfl
  · exact h.insert_thri

theorem State.Inv.resolve (h : s.Inv) : (resolve s).Inv := by
  rcases resolve_cases s with ⟨-, -, hresolve⟩ | ⟨-, -, -, hresolve⟩ | ⟨-, -, hresolve⟩ <;> rw [hresolve]
  · exact h.signalCti
  · exact h.signalThri
  · exact h.of_noInt rfl rfl h.intsOnly rfl rfl rfl

theorem CauseSet.erase_only {x : CauseSet} (c : Cause) (h : x.rlsi = false ∧ x.rdi = false ∧ x.msi = false) :
    (x.erase c).rlsi = false ∧ (x.erase c).rdi = false ∧ (x.erase c).msi = false := by
  cases c <;> simp [h]

theorem State.Inv.acknowledge (h : s.Inv) (c : Cause) : (acknowledge c s).Inv := by
  have hwithdrawn : ((s.setInts (s.ints.erase c)).setIir noInt).Inv :=
    h.of_noInt rfl rfl (CauseSet.erase_only c h.intsOnly) rfl rfl rfl
  rcases acknowledge_cases s c with ⟨-, hack⟩ | ⟨-, hack⟩ <;> rw [hack]
  · exact hwithdrawn.resolve
  · exact hwithdrawn

theorem State.Inv.acknowledgeJoint (h : s.Inv) : (acknowledgeJoint s).Inv := by
  have hwithdrawn : ((s.setInts ((s.ints.erase .rdi).erase .cti)).setIir noInt).Inv :=
    h.of_noInt rfl rfl (CauseSet.erase_only .cti (CauseSet.erase_only .rdi h.intsOnly)) rfl rfl rfl
  rcases acknowledgeJoint_cases s with ⟨-, hack⟩ | ⟨-, hack⟩ <;> rw [hack]
  · exact hwithdrawn.resolve
  · exact hwithdrawn

theorem State.Inv.acknowledgeRbr (h : s.Inv) : (acknowledgeRbr s).Inv := by
  unfold Machine.acknowledgeRbr
  split
  · exact (h.acknowledge .rdi).acknowledge .cti
  · exact (h.acknowledge .cti).acknowledge .rdi
  · exact h.acknowledgeJoint

/-! ### The receive buffer, LSR and the FIFO -/

theorem State.Inv.setFifo (h : s.Inv) {q : Queue} (hq : q.Wf) : (s.setFifo q).Inv := { h with fifoWf := hq }

theorem State.Inv.setDataReady (h : s.Inv) : (setDataReady s).Inv :=
  { h with
    lsrBits := by
      rcases h.lsrBits with hlsr | hlsr <;> simp only [Machine.setDataReady, State.setLsr_lsr, hlsr] <;> decide }

theorem State.Inv.clearDataReady (h : s.Inv) : (clearDataReady s).Inv :=
  { h with
    lsrBits := by
      rcases h.lsrBits with hlsr | hlsr <;> simp only [Machine.clearDataReady, State.setLsr_lsr, hlsr] <;> decide }

theorem State.Inv.dropReceived (h : s.Inv) : (dropReceived s).Inv := by
  rw [dropReceived_eq]
  exact h.setFifo (dropReceived_spec s h.fifoWf).1

theorem State.Inv.announceRemaining (h : s.Inv) : (announceRemaining s).Inv := by
  rcases announceRemaining_cases s with ⟨-, hrest⟩ | ⟨-, hrest⟩ <;> rw [hrest]
  · exact h.setDataReady.signalCti
  · exact h.clearDataReady

/-- THRE is set already, so a write of THR leaves LSR as it is. -/
theorem State.Inv.setThre (h : s.Inv) : setBits s.lsr lsrThre = s.lsr := by
  rcases h.lsrBits with hlsr | hlsr <;> rw [hlsr] <;> decide

/-- The low 4 bits of a byte have none of the high 4 (10_state.md R31). -/
theorem ierStored_high (v : Byte) : ierStored v &&& ~~~ierMask = 0#8 := by
  rw [ierStored, BitVec.and_assoc]
  simp

/-! ### Every event -/

theorem answer_inv {u : State} {r : Response} (h : answer r u = .next t) (hu : u.Inv) : t.Inv := by
  rw [answer_next h]
  exact { hu with }

/-- Every event keeps the invariant. -/
theorem State.Inv.exec {i : Instr} (hs : s.Inv) (h : exec i s = .next t) : t.Inv := by
  cases i with
  | rdA4 | rdA7 | wrA5 | wrA6 | wrA7 =>
    rw [unsupportedRegister_next h]
    exact { hs with }
  | rdRbr => exact answer_inv h hs.acknowledgeRbr.dropReceived.announceRemaining
  | rdIir =>
    refine answer_inv h ?_
    split
    · exact hs.acknowledge .thri
    · exact hs
  | wrThr v =>
    rw [exec_wrThr, hs.setThre] at h
    have htx : ((s.txPut v).setLsr s.lsr).Inv := { hs with }
    exact answer_inv h htx.signalThri
  | wrIer v =>
    have hier : (s.setIer (ierStored v)).Inv := { hs with ierHigh := ierStored_high v }
    exact answer_inv h hier.resolve
  | rx v => exact answer_inv h (hs.setFifo (Queue.pushBack_spec hs.fifoWf).1).setDataReady.signalCti
  | rst =>
    exact answer_inv h
      { reset_inv with lineUp := fun hne => absurd rfl hne, fifoWf := hs.fifoWf }
  | qrst => exact answer_inv h (hs.setFifo Queue.new_wf)
  | rdDll | rdIer | rdDlh | rdLcr | rdLsr | rdMsr => exact answer_inv h hs
  | wrDll | wrDlh | wrFcr | wrLcr | wrMcr => exact answer_inv h { hs with }

/-! ### DR, CTI and the FIFO (10_state.md section 7, item 6) -/

theorem setBits_dr (r : Byte) : setBits r lsrDr &&& lsrDr = lsrDr := by
  ext i hi
  simp only [setBits, BitVec.getElem_and, BitVec.getElem_or]
  cases r[i] <;> simp

theorem clearBits_dr (r : Byte) : clearBits r lsrDr &&& lsrDr = 0#8 := by
  rw [clearBits, BitVec.and_assoc]
  simp

theorem setBits_thre_dr (r : Byte) : setBits r lsrThre &&& lsrDr = r &&& lsrDr := by
  rw [setBits, BitVec.and_or_distrib_right]
  simp [lsrThre, lsrDr]

/-- Item 6 looks at DR, the pending CTI and the FIFO only. -/
theorem State.DrInv.of_same (h : s.DrInv) (hdr : t.lsr &&& lsrDr = s.lsr &&& lsrDr)
    (hcti : t.ints.cti = s.ints.cti) (hfifo : t.fifo = s.fifo) : t.DrInv := by
  rw [State.DrInv, hdr, hcti, hfifo]
  exact h

/-- Bytes queued, DR set and CTI signalled. -/
theorem signalCti_setDataReady_drInv (h : s.fifo.len ≠ 0) : (signalCti (setDataReady s)).DrInv := by
  rw [State.DrInv, signalCti_lsr, signalCti_ints, signalCti_fifo, setDataReady_fifo]
  exact ⟨iff_of_true (setBits_dr s.lsr) h, iff_of_true rfl h⟩

/-- With CTI acknowledged, the end of a read of address 0 makes DR and CTI tell whether bytes remain (R160). -/
theorem announceRemaining_drInv (h : s.ints.cti = false) : (announceRemaining s).DrInv := by
  rcases announceRemaining_cases s with ⟨hne, hrest⟩ | ⟨hempty, hrest⟩ <;> rw [hrest]
  · exact signalCti_setDataReady_drInv hne
  · have hclear : (clearDataReady s).lsr &&& lsrDr ≠ lsrDr := by
      rw [clearDataReady, State.setLsr_lsr, clearBits_dr]
      decide
    have hcti : (clearDataReady s).ints.cti ≠ true := by rw [clearDataReady, State.setLsr_ints, h]; decide
    exact ⟨iff_of_false hclear (not_not_intro hempty), iff_of_false hcti (not_not_intro hempty)⟩

theorem answer_drInv {u : State} {r : Response} (h : answer r u = .next t) (hu : u.DrInv) : t.DrInv := by
  rw [answer_next h]
  exact hu

/-- Every event but RST and QRST keeps item 6. -/
theorem State.DrInv.exec {i : Instr} (hs : s.DrInv) (h : exec i s = .next t) (hrst : i ≠ .rst) (hqrst : i ≠ .qrst) :
    t.DrInv := by
  cases i with
  | rst => exact absurd rfl hrst
  | qrst => exact absurd rfl hqrst
  | rdA4 | rdA7 | wrA5 | wrA6 | wrA7 =>
    rw [unsupportedRegister_next h]
    exact hs
  | rdRbr =>
    refine answer_drInv h (announceRemaining_drInv ?_)
    rw [dropReceived_eq, State.setFifo_ints, acknowledgeRbr_ints, CauseSet.erase_cti_cti]
  | rdIir =>
    refine answer_drInv h ?_
    split
    · exact hs.of_same (by simp) (by simp) (by simp)
    · exact hs
  | wrThr v =>
    rw [exec_wrThr] at h
    exact answer_drInv h (hs.of_same (by simp [setBits_thre_dr]) (by simp) (by simp))
  | wrIer v => exact answer_drInv h (hs.of_same (by simp) (by simp) (by simp))
  | rx v =>
    refine answer_drInv h (signalCti_setDataReady_drInv ?_)
    rw [State.setFifo_fifo, Queue.pushBack_len]
    exact Nat.succ_ne_zero _
  | rdDll | rdIer | rdDlh | rdLcr | rdLsr | rdMsr => exact answer_drInv h hs
  | wrDll | wrDlh | wrFcr | wrLcr | wrMcr => exact answer_drInv h hs

end

/-- Settles O2: each item is a fact about the reset values. -/
theorem invariantsHoldAtReset : Obligations.InvariantsHoldAtReset := by
  refine ⟨reset_inv, ?dr, ?out⟩
  case dr => exact ⟨by decide, by decide⟩
  case out => exact ⟨rfl, fun o ho => nomatch ho⟩

/-- Settles O38: taking a request touches no item, and every event keeps them all. -/
theorem stepKeepsTheInvariant : Obligations.StepKeepsTheInvariant := by
  intro s t hs h
  obtain ⟨r, rest, i, -, -, hexec⟩ := step_next s h
  have htaken : (s.setInputs rest).Inv := { hs with }
  exact htaken.exec hexec

/-- Settles O39: by the events. -/
theorem dataReadyTellsQueuedBytes : Obligations.DataReadyTellsQueuedBytes :=
  fun _ _ _ hrst hqrst hs h => hs.exec h hrst hqrst

end Sys2Proof.Machine
end

section
/-! The CircularQueue as a double-ended queue (40_circular_queue.md R133): one operation refines the reference
operation, so every sequence of them does, and O47 and O30. -/

namespace Sys2Proof.Machine

namespace Queue

/-- One operation on a well-formed queue answers what the reference deque answers, and leaves a well-formed queue with
the deque's content (R124 to R129, R135). -/
theorem apply_refines {q : Queue} (h : q.Wf) (op : QueueOp) :
    (q.apply op).1 = (dequeApply q.seq op).1 ∧ (q.apply op).2.seq = (dequeApply q.seq op).2 ∧
      (q.apply op).2.Wf := by
  cases op with
  | pushBack v =>
    obtain ⟨hwf, hseq⟩ := pushBack_spec (v := v) h
    exact ⟨by rw [apply, dequeApply, pushBack_len, seq_length], hseq, hwf⟩
  | pushFront v =>
    obtain ⟨hwf, hseq⟩ := pushFront_spec (v := v) h
    exact ⟨by rw [apply, dequeApply, pushFront_len, seq_length], hseq, hwf⟩
  | popBack =>
    obtain ⟨hwf, hvalue, hseq⟩ := popBack_spec h
    exact ⟨congrArg _ hvalue, hseq, hwf⟩
  | popFront =>
    obtain ⟨hwf, hvalue, hseq⟩ := popFront_spec h
    exact ⟨congrArg _ hvalue, hseq, hwf⟩
  | reset => exact ⟨rfl, new_seq, new_wf⟩

/-- Every sequence of operations refines the reference sequence, from any well-formed queue. -/
theorem applyAll_refines {q : Queue} (h : q.Wf) (ops : List QueueOp) :
    (q.applyAll ops).1 = (dequeApplyAll q.seq ops).1 ∧ (q.applyAll ops).2.seq = (dequeApplyAll q.seq ops).2 ∧
      (q.applyAll ops).2.Wf := by
  induction ops generalizing q with
  | nil => exact ⟨rfl, rfl, h⟩
  | cons op ops ih =>
    obtain ⟨hresult, hseq, hwf⟩ := apply_refines h op
    obtain ⟨hresults, hseqs, hwfs⟩ := ih hwf
    rw [hseq] at hresults hseqs
    exact ⟨congrArg₂ _ hresult hresults, hseqs, hwfs⟩

theorem popFront_of_empty {q : Queue} (h : q.len = 0) : q.popFront = (none, q) := if_pos h

theorem popBack_of_empty {q : Queue} (h : q.len = 0) : q.popBack = (none, q) := if_pos h

end Queue

/-- Settles O47: by refinement of every operation, and `get` reads the abstract sequence. -/
theorem queueActsAsADeque : Obligations.QueueActsAsADeque := by
  intro ops
  obtain ⟨hresults, hseq, hwf⟩ := Queue.applyAll_refines Queue.new_wf ops
  rw [Queue.new_seq] at hresults hseq
  exact ⟨hresults, hseq, hwf, fun i => by rw [Queue.get?_eq_seq, hseq]⟩

section
variable {s : State}

theorem receiveByte_of_empty (h : s.fifo.len = 0) : receiveByte s = s.params.rbrIdle :=
  if_pos (Queue.isEmpty_iff.2 h)

theorem dropReceived_of_empty (h : s.fifo.len = 0) : dropReceived s = s := if_pos (Queue.isEmpty_iff.2 h)

end

/-- Settles O30: each pop tests the length first, and a read of the receive buffer tests for emptiness before it pops.
-/
theorem emptyQueueAccessIsNoError : Obligations.EmptyQueueAccessIsNoError := by
  refine ⟨fun q h => ⟨Queue.popFront_of_empty h, Queue.popBack_of_empty h⟩,
    fun s h => ⟨_, rfl, ?byte, ?fifo⟩⟩
  all_goals have hempty : (acknowledgeRbr s).fifo.len = 0 := by rw [acknowledgeRbr_fifo, h]
  case byte => rw [State.respond_response, receiveByte_of_empty hempty, acknowledgeRbr_params]
  case fifo => rw [State.respond_fifo, announceRemaining_fifo, dropReceived_of_empty hempty, acknowledgeRbr_fifo]

end Sys2Proof.Machine
end

section
/-! Taking an event (20_memory.md R73, 30_encoding.md R94): the three outcomes of the fetch, the host's presentation
of a table word, and O3 to O6. -/

namespace Sys2Proof.Machine

section
variable {s : State} {w : Nat}

/-! ### The fetch -/

theorem step_of_no_inputs (h : s.inputs = []) : step s = .refused .noEvent := by
  simp [step, nextEvent, h]

/-- What is presented and is no event is refused, with the decoder's reason (R65, R103). -/
theorem step_of_no_event {r : Request} {rest : List Request} {why : DecodeError} (hr : s.inputs = r :: rest)
    (hwhy : decodeRequest s.dlab r = .error why) : step s = .refused (.notAnEvent why) := by
  simp [step, nextEvent, hr, hwhy]

theorem decodeRequest_read_wide {dlab : Bool} {width a : Nat} (h : width ≠ 1) :
    decodeRequest dlab (.read width a) = .error (.badWidth width) := if_neg h

theorem decodeRequest_write_wide {dlab : Bool} {width a value : Nat} (h : width ≠ 1) :
    decodeRequest dlab (.write width a value) = .error (.badWidth width) := if_neg h

/-! ### The presentation of a table word -/

/-- Setting bit 7 of LCR sets DLAB (R24). -/
theorem dlabOf_withDlab (lcr : Byte) (dlab : Bool) : dlabOf (withDlab lcr dlab) = dlab := by
  cases dlab <;> simp [dlabOf, withDlab]

/-- A table word that is an instruction is a key, and its low 16 bits are that event's word under bit 16 (R94). -/
theorem decodeTableWord_eq_some {nbits : Nat} {i : Instr} (h : decodeTableWord nbits w = some i) :
    w < 2 ^ 17 ∧ decodeWord (w.testBit 16) (BitVec.ofNat 16 w) = .ok i := by
  simp only [decodeTableWord] at h
  split_ifs at h with hkey
  split at h
  · rename_i j hdecode
    cases h
    rw [decodeKey, BitVec.getLsbD_ofNat, BitVec.setWidth_ofNat_of_le (by omega)] at hdecode
    exact ⟨hkey, hdecode⟩
  · cases h

/-- The presented state: the key's DLAB in LCR and its event word before the other requests. -/
theorem presentKey_of_lt (h : w < 2 ^ 17) (s : State) :
    presentKey s w =
      (s.setLcr (withDlab s.lcr (w.testBit 16))).setInputs (.word (BitVec.ofNat 16 w) :: s.inputs) := if_pos h

end

/-- Settles O3: the fetch decodes the first request under DLAB and leaves the rest. -/
theorem stepRunsTheDecodedEvent : Obligations.StepRunsTheDecodedEvent :=
  fun _ _ _ _ hr hi => step_of_inputs hr hi

/-- Settles O4: no request, or the decoder's reason; a wide access is refused before its address is looked at. -/
theorem stepRefusesWhatIsNoEvent : Obligations.StepRefusesWhatIsNoEvent := by
  refine ⟨fun s h => step_of_no_inputs h, fun s r rest why hr hwhy => step_of_no_event hr hwhy,
    fun s rest width a value hwidth hr => ?_⟩
  rcases hr with hr | hr
  · exact step_of_no_event hr (decodeRequest_read_wide hwidth)
  · exact step_of_no_event hr (decodeRequest_write_wide hwidth)

/-- Settles O5: the presented word is decoded under the DLAB it brings along. -/
theorem fetchWordRunsTheTableInstruction : Obligations.FetchWordRunsTheTableInstruction := by
  intro s nbits w i h
  obtain ⟨hkey, hdecode⟩ := decodeTableWord_eq_some h
  rw [State.withFetchWord, presentKey_of_lt hkey]
  refine step_presented (s.setLcr (withDlab s.lcr (w.testBit 16))) ?_
  rwa [State.dlab, State.setLcr_lcr, dlabOf_withDlab, decodeRequest_word]

/-- Settles O6: each word is written out, and the decoder computes its row. -/
theorem sampleWordsDecodeToTheirRows : Obligations.SampleWordsDecodeToTheirRows := by
  unfold Obligations.SampleWordsDecodeToTheirRows
  decide

/-- Settles O1: the reset state is written out, and every clause computes. -/
theorem resetLeavesPowerOnState : Obligations.ResetLeavesPowerOnState := by
  refine ⟨rfl, rfl, rfl, rfl, rfl, rfl, rfl, rfl, rfl, fun c => ?causes, rfl, rfl, rfl, rfl, rfl, rfl, rfl⟩
  case causes => cases c <;> rfl

end Sys2Proof.Machine
end

section
/-! The events that are one update (43_register_writes.md R184, 44_external_events.md R201, R203, 60_exceptions.md
R211): O21, O25, O26 and O27. -/

namespace Sys2Proof.Machine

theorem unsupportedRegister_of_errorReturn {s : State} {d : Dir} {a : Nat}
    (h : s.params.unsupportedMode = .errorReturn) : unsupportedRegister d a s = .next (s.respond (.error d a)) := by
  rw [unsupportedRegister, h]
  rfl

/-- Settles O21: the word is the write of address 2 under any DLAB, and the event stores the byte and answers. -/
theorem wrFcrOnlyStores : Obligations.WrFcrOnlyStores := by
  refine ⟨fun dlab v => ?word, fun v s => rfl⟩
  exact (decodeWord_writeBytes dlab 2#3 v).trans (congrArg _ (decodeWrite_two dlab v))

/-- Settles O25: the reset values are written out. -/
theorem resetsRestoreTheirPart : Obligations.ResetsRestoreTheirPart := fun _ => ⟨rfl, rfl⟩

/-- Settles O26: each of the five rows is UnsupportedRegister. -/
theorem unsupportedAccessesFault : Obligations.UnsupportedAccessesFault := by
  intro s hmode
  have hfault (d : Dir) (a : Nat) := unsupportedRegister_of_fault (d := d) (a := a) hmode
  exact ⟨hfault .read 4, hfault .read, fun _ => hfault .write 5, fun _ => hfault .write 6,
    fun a _ => hfault .write a⟩

/-- Settles O27: each of the five rows is UnsupportedRegister. -/
theorem unsupportedAccessesAnswerAnError : Obligations.UnsupportedAccessesAnswerAnError := by
  intro s hmode
  have herror (d : Dir) (a : Nat) := unsupportedRegister_of_errorReturn (d := d) (a := a) hmode
  exact ⟨herror .read 4, herror .read, fun _ => herror .write 5, fun _ => herror .write 6,
    fun a _ => herror .write a⟩

end Sys2Proof.Machine
end

section
/-! The reads of IIR and of the receive buffer, RX, and the acknowledgement of address 0 (42_register_reads.md R160,
R164; 44_external_events.md R200; 41_interrupt_state_machine.md R140 to R144): O16 to O19, O24 and O33. -/

namespace Sys2Proof.Machine

section
variable {s t : State} {c : Cause}

/-! ### SignalCTI, Resolve and Acknowledge as equations -/

/-- SignalCTI makes CTI pending, and reports it when it is enabled and IIR holds neither RLSI nor RDI (R140). -/
theorem signalCti_eq (s : State) :
    signalCti s =
      if rdiEnabled s.ier = true ∧ s.iir ≠ code .rlsi ∧ s.iir ≠ code .rdi then
        report .cti (s.setInts (s.ints.insert .cti))
      else s.setInts (s.ints.insert .cti) := by
  rcases signalCti_cases s with ⟨hen, hrlsi, hrdi, h⟩ | ⟨hnot, h⟩
  · rw [h, if_pos ⟨hen, hrlsi, hrdi⟩]
  · rw [h, if_neg (by grind)]

/-- Acknowledging a cause that is not the reported one withdraws the report without an output (R143). -/
theorem acknowledge_of_ne (h : s.iir ≠ code c) :
    acknowledge c s = (s.setInts (s.ints.erase c)).setIir noInt := by
  rcases acknowledge_cases s c with ⟨hmatch, -⟩ | ⟨-, hack⟩
  · exact absurd hmatch h
  · exact hack

/-- Of two acknowledgements, the second finds no match after a first that found none. -/
theorem acknowledge_acknowledge_of_ne (h : s.iir ≠ code c) (c' : Cause) :
    acknowledge c' (acknowledge c s) = (s.setInts ((s.ints.erase c).erase c')).setIir noInt := by
  rw [acknowledge_of_ne h, acknowledge_of_ne (noInt_ne_code c')]
  rfl

/-- An acknowledgement of the reported cause that leaves no enabled CTI pending reports an enabled pending THRI, or
clears the line (R143). -/
theorem acknowledge_cti_of_eq (h : s.iir = code .cti) :
    acknowledge .cti s =
      if s.ints.thri = true ∧ thriEnabled s.ier = true then report .thri (s.setInts (s.ints.erase .cti))
      else ((s.setInts (s.ints.erase .cti)).setIir noInt).irqClear := by
  rcases acknowledge_cases s .cti with ⟨-, hack⟩ | ⟨hne, -⟩
  · rw [hack, resolve_of_noInt rfl, if_neg (by simp)]
    rfl
  · exact absurd h hne

theorem acknowledgeJoint_of_cti (h : s.iir = code .cti) :
    acknowledgeJoint s =
      if s.ints.thri = true ∧ thriEnabled s.ier = true then
        report .thri (s.setInts ((s.ints.erase .rdi).erase .cti))
      else ((s.setInts ((s.ints.erase .rdi).erase .cti)).setIir noInt).irqClear := by
  rcases acknowledgeJoint_cases s with ⟨-, hack⟩ | ⟨⟨-, hne⟩, -⟩
  · rw [hack, resolve_of_noInt rfl, if_neg (by simp)]
    rfl
  · exact absurd h hne

theorem code_cti_ne_rdi : code .cti ≠ code .rdi := by decide

/-- A reported cause that is neither RDI nor CTI is withdrawn by a read of address 0, in every mode (R144). -/
theorem acknowledgeRbr_of_ne (hrdi : s.iir ≠ code .rdi) (hcti : s.iir ≠ code .cti) :
    acknowledgeRbr s = (s.setInts ((s.ints.erase .rdi).erase .cti)).setIir noInt := by
  unfold acknowledgeRbr
  split
  · exact acknowledge_acknowledge_of_ne hrdi .cti
  · exact acknowledge_acknowledge_of_ne hcti .rdi
  · rcases acknowledgeJoint_cases s with ⟨hmatch, -⟩ | ⟨-, hack⟩
    · exact absurd hmatch (not_or.2 ⟨hrdi, hcti⟩)
    · exact hack

/-! ### Frames -/

/-- A state is another with the fields that a receive event may write. -/
theorem eq_of_kept_fields (hlcr : t.lcr = s.lcr) (hmsr : t.msr = s.msr) (hmcr : t.mcr = s.mcr) (hier : t.ier = s.ier)
    (hfcr : t.fcr = s.fcr) (hdll : t.dll = s.dll) (hdlh : t.dlh = s.dlh) (hinputs : t.inputs = s.inputs)
    (hparams : t.params = s.params) :
    t = { s with
      lsr := t.lsr, fifo := t.fifo, ints := t.ints, iir := t.iir, irq := t.irq, out := t.out
      response := t.response } := by
  cases t
  simp_all

/-! ### The end of a read of the receive buffer -/

/-- The FIFO without its oldest byte, if it has one (R160). -/
def Queue.dropOldest (q : Queue) : Queue := if q.isEmpty then q else q.popFront.2

theorem dropReceived_eq_setFifo (s : State) : dropReceived s = s.setFifo s.fifo.dropOldest := by
  unfold dropReceived Queue.dropOldest
  split <;> rfl

theorem Queue.dropOldest_spec {q : Queue} (h : q.Wf) : q.dropOldest.Wf ∧ q.dropOldest.seq = q.seq.tail := by
  unfold Queue.dropOldest
  split
  · rename_i hempty
    rw [Queue.seq_eq_nil.2 (Queue.isEmpty_iff.1 hempty)]
    exact ⟨h, rfl⟩
  · obtain ⟨hwf, -, hseq⟩ := Queue.popFront_spec h
    exact ⟨hwf, hseq⟩

/-- Bytes remain after a read of address 0 exactly when more than one was queued. -/
theorem Queue.dropOldest_len_ne_zero {q : Queue} (h : q.Wf) : q.dropOldest.len ≠ 0 ↔ 1 < q.seq.length := by
  rw [← Queue.seq_length, (Queue.dropOldest_spec h).2, List.length_tail]
  omega

theorem announceRemaining_of_ne (h : s.fifo.len ≠ 0) : announceRemaining s = signalCti (setDataReady s) := by
  rcases announceRemaining_cases s with ⟨-, hrest⟩ | ⟨hempty, -⟩
  · exact hrest
  · exact absurd hempty h

theorem announceRemaining_of_empty (h : s.fifo.len = 0) : announceRemaining s = clearDataReady s := by
  rcases announceRemaining_cases s with ⟨hne, -⟩ | ⟨-, hrest⟩
  · exact absurd h hne
  · exact hrest

/-- After the acknowledgement of a read of address 0 nothing outranks CTI. -/
theorem acknowledgeRbr_not_outranked (s : State) :
    (acknowledgeRbr s).iir ≠ code .rlsi ∧ (acknowledgeRbr s).iir ≠ code .rdi := by
  rcases acknowledgeRbr_iir s with h | h | h <;> rw [h] <;> decide

/-- The byte a read of address 0 answers: the oldest, or the idle byte (R160). -/
def rbrAnswer (s : State) : Response := .byte (s.fifo.seq.head?.getD s.params.rbrIdle)

theorem exec_rdRbr (hwf : s.fifo.Wf) :
    exec .rdRbr s =
      .next ((announceRemaining ((acknowledgeRbr s).setFifo s.fifo.dropOldest)).respond (rbrAnswer s)) := by
  have hbyte := receiveByte_eq (acknowledgeRbr s) (by rwa [acknowledgeRbr_fifo])
  rw [acknowledgeRbr_fifo, acknowledgeRbr_params] at hbyte
  rw [rbrAnswer, ← hbyte, ← acknowledgeRbr_fifo s, ← dropReceived_eq_setFifo]
  rfl

/-- A read of address 0 that leaves bytes sets DR and signals CTI (R160). -/
theorem exec_rdRbr_of_remaining (hwf : s.fifo.Wf) (h : 1 < s.fifo.seq.length) :
    exec .rdRbr s =
      .next ((signalCti (setDataReady ((acknowledgeRbr s).setFifo s.fifo.dropOldest))).respond (rbrAnswer s)) := by
  rw [exec_rdRbr hwf, announceRemaining_of_ne ((Queue.dropOldest_len_ne_zero hwf).2 h)]

/-- A read of address 0 that leaves no byte clears DR (R160). -/
theorem exec_rdRbr_of_last (hwf : s.fifo.Wf) (h : ¬ 1 < s.fifo.seq.length) :
    exec .rdRbr s =
      .next ((clearDataReady ((acknowledgeRbr s).setFifo s.fifo.dropOldest)).respond (rbrAnswer s)) := by
  rw [exec_rdRbr hwf, announceRemaining_of_empty (not_not.1 (mt (Queue.dropOldest_len_ne_zero hwf).1 h))]

end

/-- Settles O33: the equations of the three procedures; Resolve that finds a THRI it may not report changes nothing.
-/
theorem priorityActsInThreePlaces : Obligations.PriorityActsInThreePlaces := by
  intro s
  refine ⟨?signalCti, by rw [signalCti_ints, CauseSet.insert_cti_thri], ?signalThri, fun hcti => ?keepsCti,
    fun hcti hen hrlsi hrdi => ?resolveCti, fun hthri hen hnoCti => ?resolveThri⟩
  case signalCti =>
    rw [signalCti_eq, rdiEnabled]
    split_ifs <;> rfl
  case signalThri =>
    rw [signalThri_eq, thriEnabled]
    split_ifs <;> rfl
  case keepsCti =>
    have hnot : ¬ (s.iir = noInt ∨ s.iir = code .msi ∨ s.iir = code .thri) := by
      rw [hcti]
      decide
    rw [signalThri_eq, if_neg (fun h => hnot h.2)]
    exact hcti
  case resolveCti =>
    rw [resolve_eq, if_pos ⟨hcti, hen⟩, if_neg (not_or.2 ⟨hrlsi, hrdi⟩)]
    exact ⟨rfl, rfl⟩
  case resolveThri =>
    have hcti : ¬ (s.ints.cti = true ∧ rdiEnabled s.ier = true) := by
      rw [rdiEnabled]
      grind
    have hthri : s.ints.thri = true ∧ thriEnabled s.ier = true := ⟨hthri, hen⟩
    rw [resolve_eq, if_neg hcti, if_pos hthri]
    split_ifs
    · exact ⟨rfl, rfl⟩
    · rfl

/-- Settles O16: an acknowledgement of THRI when IIR holds its code, and an answer only when it does not. -/
theorem rdIirAnswersThenAcknowledgesThri : Obligations.RdIirAnswersThenAcknowledgesThri := by
  intro s
  by_cases hthri : s.iir = code .thri
  · refine ⟨_, exec_rdIir_of_thri hthri, rfl, ?frame, fun hne => absurd hthri hne, fun _ => ⟨?ints, ?line⟩⟩
    case frame => exact congrArg (State.respond · _) (acknowledge_frame s .thri)
    case ints => exact acknowledge_ints s .thri
    case line =>
      obtain ⟨-, -, hmatch⟩ := acknowledgeRearbitratesOnlyOnAMatch .thri s
      rw [hmatch hthri, CauseSet.erase_thri_cti, CauseSet.erase_thri_thri]
      split_ifs with hcti hfalse
      · exact ⟨rfl, rfl, rfl⟩
      · exact absurd hfalse (by simp)
      · exact ⟨rfl, rfl, rfl⟩
  · exact ⟨_, exec_rdIir_of_ne hthri, rfl, rfl, fun _ => rfl, fun h => absurd h hthri⟩

/-- Settles O24: RX is SignalCTI run with the byte appended and DR set. -/
theorem rxQueuesTheByteAndSignals : Obligations.RxQueuesTheByteAndSignals := by
  refine ⟨fun dlab value => decodeRequest_receive value, fun b s hwf => ?effect⟩
  obtain ⟨hwf', hseq⟩ := Queue.pushBack_spec (v := b) hwf
  refine ⟨_, rfl, ?wf, ?seq, ?lsr, ?ints, ?reported, ?frame⟩
  case wf => simpa using hwf'
  case seq => simpa using hseq
  case lsr => exact signalCti_lsr _
  case ints => exact signalCti_ints _
  case reported =>
    rw [signalCti_eq, rdiEnabled]
    split_ifs with h h' h'
    · exact ⟨rfl, rfl, rfl⟩
    · exact absurd h h'
    · exact absurd h' h
    · exact ⟨rfl, rfl, rfl⟩
  case frame => apply eq_of_kept_fields <;> simp [setDataReady]

theorem rbrAnswer_eq (s : State) :
    rbrAnswer s = .byte (match s.fifo.seq with | [] => s.params.rbrIdle | b :: _ => b) := by
  rw [rbrAnswer]
  cases s.fifo.seq <;> rfl

/-- Settles O17: by whether bytes remain; then DR is set and CTI signalled after the acknowledgement, or DR is
cleared. -/
theorem rdRbrPopsTheOldestByte : Obligations.RdRbrPopsTheOldestByte := by
  intro s hwf
  obtain ⟨hwf', hseq⟩ := Queue.dropOldest_spec hwf
  by_cases hrest : 1 < s.fifo.seq.length
  · refine ⟨_, exec_rdRbr_of_remaining hwf hrest, rbrAnswer_eq s, ?_, ?_, ?lsr, ?ints, ?reported, ?frame⟩
    case lsr =>
      rw [if_pos hrest]
      simp [setDataReady, setBits]
    case ints =>
      rw [decide_eq_true hrest]
      simp [setDataReady, CauseSet.insert, CauseSet.erase]
    case reported =>
      obtain ⟨hrlsi, hrdi⟩ := acknowledgeRbr_not_outranked s
      have hier : (setDataReady ((acknowledgeRbr s).setFifo s.fifo.dropOldest)).ier = s.ier := acknowledgeRbr_ier s
      rw [signalCti_eq, hier]
      by_cases hen : rdiEnabled s.ier = true
      · rw [if_pos ⟨hrest, hen⟩, if_pos ⟨hen, hrlsi, hrdi⟩, ← acknowledgeRbr_params s]
        exact ⟨rfl, rfl, rfl⟩
      · rw [if_neg (fun h => hen h.2), if_neg (fun h => hen h.1)]
        exact ⟨rfl, rfl, rfl⟩
    case frame => apply eq_of_kept_fields <;> simp [setDataReady]
    · simpa using hwf'
    · simpa using hseq
  · refine ⟨_, exec_rdRbr_of_last hwf hrest, rbrAnswer_eq s, hwf', hseq, ?lsr, ?ints, ?reported, ?frame⟩
    case lsr =>
      rw [if_neg hrest]
      simp [clearDataReady, clearBits]
    case ints =>
      rw [decide_eq_false hrest]
      simp [clearDataReady, CauseSet.erase]
    case reported =>
      rw [if_neg (fun h => hrest h.1)]
      exact ⟨rfl, rfl, rfl⟩
    case frame => apply eq_of_kept_fields <;> simp [clearDataReady]

/-- Settles O18: in every mode the acknowledgements find no match from NO_INT or THRI; from CTI the first mode
withdraws it before it is acknowledged, and the others re-arbitrate. -/
theorem acknowledgeRbrByMode : Obligations.AcknowledgeRbrByMode := by
  refine ⟨fun s hiir => ?unreported, fun s hcti hmode => ?rdiFirst, fun s hcti hmode => ?rearbitrated⟩
  case unreported =>
    refine acknowledgeRbr_of_ne ?_ ?_
    all_goals rcases hiir with h | h <;> rw [h] <;> decide
  case rdiFirst =>
    rw [acknowledgeRbr, hmode]
    exact acknowledge_acknowledge_of_ne (hcti ▸ code_cti_ne_rdi) .cti
  case rearbitrated =>
    cases hm : s.params.rbrAckMode with
    | seqRdiCti => exact absurd hm hmode
    | seqCtiRdi =>
      have hne : (acknowledge .cti s).iir ≠ code .rdi := by
        rcases acknowledge_iir s .cti with h | h | h <;> rw [h] <;> decide
      rw [acknowledgeRbr, hm]
      simp only []
      rw [acknowledge_of_ne hne, acknowledge_cti_of_eq hcti, thriEnabled,
        if_neg (by decide : ¬ AckMode.seqCtiRdi = .joint)]
      split_ifs <;> rfl
    | joint =>
      rw [acknowledgeRbr, hm]
      simp only []
      rw [acknowledgeJoint_of_cti hcti, thriEnabled]
      split_ifs <;> rfl

end Sys2Proof.Machine
end

section
/-! What the modes of the acknowledgement share, and which events change the pending causes (60_exceptions.md sections
2 and 4): O19 and O36. -/

namespace Sys2Proof.Machine

section
variable {s t : State} {i : Instr}

theorem exec_rdRbr_fifo_eq (hwf : s.fifo.Wf) (h : exec .rdRbr s = .next t) : t.fifo = s.fifo.dropOldest := by
  rw [exec_rdRbr hwf] at h
  cases h
  simp

/-- A read of address 0 leaves RDI acknowledged, and CTI pending exactly when bytes remain (R160). -/
theorem exec_rdRbr_ints (hwf : s.fifo.Wf) (h : exec .rdRbr s = .next t) :
    t.ints = { s.ints with rdi := false, cti := decide (t.fifo.seq ≠ []) } := by
  have hrest : 1 < s.fifo.seq.length ↔ t.fifo.seq ≠ [] := by
    rw [exec_rdRbr_fifo_eq hwf h, ne_eq, Queue.seq_eq_nil, ← Queue.dropOldest_len_ne_zero hwf]
  obtain ⟨u, hu, -, -, -, -, hints, -⟩ := rdRbrPopsTheOldestByte s hwf
  cases hu.symm.trans h
  rw [hints, decide_eq_decide.2 hrest]

theorem answer_ints {r : Response} {u : State} (h : answer r u = .next t) : t.ints = u.ints := by
  rw [answer_next h, State.respond_ints]

/-- What an event can do to the pending causes: RX makes CTI pending and WR.THR THRI, a read of address 0
acknowledges, a read of IIR that reports THRI removes it, RST empties the set, and every other event keeps it. -/
theorem exec_ints_cases (hwf : s.fifo.Wf) (h : exec i s = .next t) :
    (∃ b, i = .rx b ∧ t.ints = s.ints.insert .cti) ∨
    (∃ v, i = .wrThr v ∧ t.ints = s.ints.insert .thri) ∨
    (i = .rdRbr ∧ t.ints = { s.ints with rdi := false, cti := decide (t.fifo.seq ≠ []) }) ∨
    (i = .rdIir ∧ s.iir = code .thri ∧ t.ints = s.ints.erase .thri) ∨
    (i = .rst ∧ t.ints = CauseSet.empty) ∨
    t.ints = s.ints := by
  cases i with
  | rx b => exact .inl ⟨b, rfl, (answer_ints h).trans (signalCti_ints _)⟩
  | wrThr v => exact .inr (.inl ⟨v, rfl, (answer_ints h).trans (signalThri_ints _)⟩)
  | rdRbr => exact .inr (.inr (.inl ⟨rfl, exec_rdRbr_ints hwf h⟩))
  | rdIir =>
    by_cases hthri : s.iir = code .thri
    · rw [exec_rdIir_of_thri hthri] at h
      cases h
      exact .inr (.inr (.inr (.inl ⟨rfl, hthri, acknowledge_ints s .thri⟩)))
    · rw [exec_rdIir_of_ne hthri] at h
      cases h
      exact .inr (.inr (.inr (.inr (.inr rfl))))
  | rst => exact .inr (.inr (.inr (.inr (.inl ⟨rfl, answer_ints h⟩))))
  | wrIer v => exact .inr (.inr (.inr (.inr (.inr ((answer_ints h).trans (resolve_ints _))))))
  | rdA4 | rdA7 | wrA5 | wrA6 | wrA7 =>
    rw [unsupportedRegister_next h]
    exact .inr (.inr (.inr (.inr (.inr rfl))))
  | rdDll | rdIer | rdDlh | rdLcr | rdLsr | rdMsr => exact .inr (.inr (.inr (.inr (.inr (answer_ints h)))))
  | wrDll | wrDlh | wrFcr | wrLcr | wrMcr | qrst =>
    exact .inr (.inr (.inr (.inr (.inr ((answer_ints h).trans rfl)))))

/-! ### A read of address 0 in another acknowledgement mode -/

/-- The state under another reading of "acknowledges both" (R8, R144). -/
def State.withAckMode (s : State) (m : AckMode) : State := { s with params := { s.params with rbrAckMode := m } }

/-- The byte, the FIFO, LSR and the causes that a read of address 0 leaves, without the mode. -/
theorem exec_rdRbr_withAckMode {m : AckMode} (hwf : s.fifo.Wf) (h : exec .rdRbr (s.withAckMode m) = .next t) :
    t.response = rbrAnswer s ∧ t.fifo = s.fifo.dropOldest ∧
    t.lsr = (if 1 < s.fifo.seq.length then s.lsr ||| lsrDr else s.lsr &&& ~~~lsrDr) ∧
    t.ints = { s.ints with rdi := false, cti := decide (1 < s.fifo.seq.length) } := by
  obtain ⟨u, hu, hbyte, -, -, hlsr, hints, -⟩ := rdRbrPopsTheOldestByte (s.withAckMode m) hwf
  cases hu.symm.trans h
  exact ⟨hbyte.trans (rbrAnswer_eq s).symm, exec_rdRbr_fifo_eq (s := s.withAckMode m) hwf h, hlsr, hints⟩

/-- The report, the line and the outputs that a read of address 0 leaves when IIR held neither RDI nor CTI, without
the mode. -/
theorem exec_rdRbr_withAckMode_report {m : AckMode} (hwf : s.fifo.Wf) (hrdi : s.iir ≠ code .rdi)
    (hcti : s.iir ≠ code .cti) (h : exec .rdRbr (s.withAckMode m) = .next t) :
    if 1 < s.fifo.seq.length ∧ s.ier.getLsbD 0 = true then
      t.iir = code .cti ∧ t.irq = true ∧ t.out = s.out ++ [.raise s.params.irqLine]
    else t.iir = noInt ∧ t.irq = s.irq ∧ t.out = s.out := by
  obtain ⟨u, hu, -, -, -, -, -, hreport, -⟩ := rdRbrPopsTheOldestByte (s.withAckMode m) hwf
  cases hu.symm.trans h
  rwa [acknowledgeRbr_of_ne (s := s.withAckMode m) hrdi hcti] at hreport

end

/-- Settles O19: the acknowledgement does not reach the byte, the FIFO, LSR and the causes, and from NO_INT or THRI it
is the same in every mode. -/
theorem ackModesAgreeOnWhatTheGuestReads : Obligations.AckModesAgreeOnWhatTheGuestReads := by
  intro s t t' m m' hinv h h'
  have hwf := hinv.fifoWf
  obtain ⟨hbyte, hfifo, hlsr, hints⟩ := exec_rdRbr_withAckMode hwf h
  obtain ⟨hbyte', hfifo', hlsr', hints'⟩ := exec_rdRbr_withAckMode hwf h'
  refine ⟨hbyte.trans hbyte'.symm, hfifo.trans hfifo'.symm, hlsr.trans hlsr'.symm, hints.trans hints'.symm,
    fun hcti => ?report⟩
  have hrdi : s.iir ≠ code .rdi := by
    rcases hinv.iirCode with hiir | hiir | hiir <;> rw [hiir] <;> decide
  have hreport := exec_rdRbr_withAckMode_report hwf hrdi hcti h
  have hreport' := exec_rdRbr_withAckMode_report hwf hrdi hcti h'
  split at hreport
  case isTrue hen =>
    rw [if_pos hen] at hreport'
    grind
  case isFalse hno =>
    rw [if_neg hno] at hreport'
    grind

/-- Settles O36: by what each event does to the set. -/
theorem pendingCausesChangeOnlyAsListed : Obligations.PendingCausesChangeOnlyAsListed := by
  intro i s t hwf h
  rcases exec_ints_cases hwf h with ⟨b, rfl, hints⟩ | ⟨v, rfl, hints⟩ | ⟨rfl, hints⟩ |
    ⟨rfl, hthri, hints⟩ | ⟨rfl, hints⟩ | hints
  all_goals rw [hints]
  · simp +contextual
  · simp +contextual
  · simp +contextual
  · simp +contextual [hthri]
  · simp +contextual
  · grind

end Sys2Proof.Machine
end

section
/-! Runs (60_exceptions.md R210, R211): what an event answers, what one step of a run does with its request, and O31
and O32. -/

namespace Sys2Proof.Machine

section
variable {s t : State} {i : Instr} {d : Dir} {a k : Nat}

/-! ### What an event answers -/

theorem answer_response {r : Response} {u : State} (h : answer r u = .next t) : t.response = r := by
  rw [answer_next h, State.respond_response]

/-- An event that makes no unsupported access answers no error. -/
theorem exec_answers_no_error (hacc : unsupportedAccess i = none) (h : exec i s = .next t) :
    t.response.isError = false := by
  cases i with
  | rdA4 | rdA7 | wrA5 | wrA6 | wrA7 => cases hacc
  | rdRbr | rdDll | rdIer | rdDlh | rdIir | rdLcr | rdLsr | rdMsr =>
    rw [answer_response h]
    rfl
  | wrThr | wrDll | wrIer | wrDlh | wrFcr | wrLcr | wrMcr | rx | rst | qrst =>
    rw [answer_response h]
    rfl

/-- An event that makes an unsupported access and completes answers an error (R211). -/
theorem exec_answers_error (hacc : unsupportedAccess i = some (d, a)) (h : exec i s = .next t) :
    t.response.isError = true := by
  rw [exec_unsupported hacc] at h
  rw [unsupportedRegister_next h]
  rfl

/-- Under `ERROR_RETURN` no event faults (R211). -/
theorem exec_ne_fault (hmode : s.params.unsupportedMode = .errorReturn) {f : Fault} : exec i s ≠ .fault f := by
  intro h
  rcases exec_completes_or_faults i s with ⟨t, ht⟩ | ⟨d, a, hfaultMode, -, -⟩
  · cases ht.symm.trans h
  · cases hmode.symm.trans hfaultMode

/-! ### One step of a run -/

/-- A step that faults is a faulting event. -/
theorem step_fault {f : Fault} (h : step s = .fault f) :
    ∃ r rest i, s.inputs = r :: rest ∧ decodeRequest s.dlab r = .ok i ∧ exec i (s.setInputs rest) = .fault f := by
  cases hnext : nextEvent s with
  | error w => simp [step, hnext] at h
  | ok e =>
    obtain ⟨r, rest, hinputs, hdecode, htaken⟩ := nextEvent_ok s hnext
    refine ⟨r, rest, e.1, hinputs, hdecode, ?_⟩
    rw [← htaken, ← h, step, hnext]

theorem exec_inputs (h : exec i s = .next t) : t.inputs = s.inputs := by
  obtain ⟨l, hl⟩ := exec_emits h
  exact hl.inputs

theorem step_params (h : step s = .next t) : t.params = s.params := by
  obtain ⟨r, rest, i, -, l, hl⟩ := step_emits h
  exact hl.params

/-- Every request, under either DLAB, asks for no unsupported access. -/
def Supported (l : List Request) : Prop :=
  ∀ r ∈ l, ∀ (dlab : Bool) (i : Instr), decodeRequest dlab r = .ok i → unsupportedAccess i = none

/-- A run of supported requests is safe, by induction on the number of steps. -/
theorem safeRun_of_supported (k : Nat) : ∀ s : State, Supported s.inputs → safeRun k s := by
  induction k with
  | zero => exact fun _ _ => trivial
  | succ k ih =>
    intro s hs
    rw [safeRun]
    cases hstep : step s with
    | refused w => trivial
    | fault f =>
      obtain ⟨r, rest, i, hinputs, hdecode, hfault⟩ := step_fault hstep
      obtain ⟨t, ht⟩ := exec_completes (hs r (by simp [hinputs]) _ i hdecode) (s.setInputs rest)
      cases ht.symm.trans hfault
    | next t =>
      obtain ⟨r, rest, i, hinputs, hdecode, hexec⟩ := step_next s hstep
      refine ⟨exec_answers_no_error (hs r (by simp [hinputs]) _ i hdecode) hexec, ih t ?_⟩
      intro q hq
      rw [exec_inputs hexec, State.setInputs_inputs] at hq
      exact hs q (by simp [hinputs, hq])

/-- Under `ERROR_RETURN` no run faults, by induction on the number of steps. -/
theorem faultFreeRun_of_errorReturn (k : Nat) :
    ∀ s : State, s.params.unsupportedMode = .errorReturn → faultFreeRun k s := by
  induction k with
  | zero => exact fun _ _ => trivial
  | succ k ih =>
    intro s hmode
    rw [faultFreeRun]
    cases hstep : step s with
    | refused w => trivial
    | fault f =>
      obtain ⟨r, rest, i, -, -, hfault⟩ := step_fault hstep
      exact absurd hfault (exec_ne_fault (s := s.setInputs rest) hmode)
    | next t => exact ih t (by rw [step_params hstep, hmode])

/-- A step on an unsupported access ends a safe run. -/
theorem not_safeRun_of_unsupported {r : Request} {rest : List Request} (hinputs : s.inputs = r :: rest)
    (hdecode : decodeRequest s.dlab r = .ok i) (hacc : unsupportedAccess i ≠ none) : ¬ safeRun (k + 1) s := by
  obtain ⟨⟨d, a⟩, hsome⟩ := Option.ne_none_iff_exists'.1 hacc
  have hstep := step_of_inputs hinputs hdecode
  cases hexec : exec i (s.setInputs rest) with
  | refused w => exact absurd hexec exec_ne_refused
  | fault f => exact safeRun_fault s (hstep.trans hexec)
  | next t =>
    rw [safeRun_next s (hstep.trans hexec), exec_answers_error hsome hexec]
    exact fun h => nomatch h.1

end

/-- Settles O31: by induction on the steps; a supported event completes without an error, and under `ERROR_RETURN`
every event completes. -/
theorem supportedRunsNeverFault : Obligations.SupportedRunsNeverFault := by
  refine ⟨fun k s hs => ?supported, faultFreeRun_of_errorReturn⟩
  have hsafe := safeRun_of_supported k s hs
  exact ⟨hsafe, safeRun_faultFree s k hsafe⟩

/-- Settles O32: by induction on the requests before the access, each of which is one step of the run or its end. -/
theorem unsupportedAccessMakesARunUnsafe : Obligations.UnsupportedAccessMakesARunUnsafe := by
  intro before rest r s k hinputs hbefore hr hk
  induction before generalizing s k with
  | nil =>
    obtain ⟨i, hdecode, hacc⟩ := hr s.dlab
    obtain ⟨k, rfl⟩ := Nat.exists_eq_succ_of_ne_zero (Nat.ne_of_gt hk)
    exact not_safeRun_of_unsupported hinputs hdecode hacc
  | cons q before ih =>
    obtain ⟨i, hdecode⟩ := hbefore q (by simp) s.dlab
    obtain ⟨k, rfl⟩ := Nat.exists_eq_succ_of_ne_zero (Nat.ne_of_gt (Nat.zero_lt_of_lt hk))
    have hstep := step_of_inputs hinputs hdecode
    cases hexec : exec i (s.setInputs (before ++ r :: rest)) with
    | refused w => exact absurd hexec exec_ne_refused
    | fault f => exact safeRun_fault s (hstep.trans hexec)
    | next t =>
      rw [safeRun_next s (hstep.trans hexec)]
      rintro ⟨-, hsafe⟩
      exact ih t k (exec_inputs hexec) (fun p hp => hbefore p (by simp [hp])) (by simpa using hk) hsafe

end Sys2Proof.Machine
end

section
/-! The signal-level view (00_scope.md R13): what the ports show of an event, by the access it makes, and O52. -/

namespace Sys2Proof.Machine

section
variable {s t : State} {i : Instr} {p : PortsIn} {r : Request} {dlab : Bool} {a : Nat}

/-! ### The ports of an event -/

/-- The ports show the answer, the line and the byte the event transmits. -/
theorem eventPorts_of_exec (h : exec i s = .next t) :
    eventPorts s t =
      { rdata := t.response.rdata, irq := t.irq, txValid := !(bytesSent i).isEmpty, txdata := (bytesSent i).head?
        fault := t.response.isError } := by
  obtain ⟨l, hl⟩ := exec_emits h
  have hsent : transmitted (t.out.drop s.out.length) = bytesSent i := by
    rw [hl.out, List.drop_left, hl.transmits]
  rw [eventPorts, hsent]

/-- An event that makes no unsupported access completes, and the ports show it without a fault. -/
theorem portsOut_of_supported (hp : p.request = some r) (hacc : unsupportedAccess i = none) (h : exec i s = .next t) :
    portsOut p s (exec i s) =
      { rdata := t.response.rdata, irq := t.irq, txValid := !(bytesSent i).isEmpty, txdata := (bytesSent i).head?
        fault := false } := by
  rw [h, portsOut_next s hp, eventPorts_of_exec h, exec_answers_no_error hacc h]

/-- In either mode the ports show nothing of an unsupported access but `fault` (R211). -/
theorem portsOut_of_unsupported (hp : p.request = some r) (hacc : unsupportedAccess i ≠ none) :
    portsOut p s (exec i s) = { quietPorts s.irq with fault := true } := by
  obtain ⟨⟨d, a⟩, hsome⟩ := Option.ne_none_iff_exists'.1 hacc
  rw [exec_unsupported hsome]
  rcases unsupportedRegister_cases s d a with ⟨-, hfault⟩ | ⟨-, hanswer⟩
  · rw [hfault, portsOut_fault s hp]
  · rw [hanswer, portsOut_next s hp, eventPorts, State.respond_out, List.drop_length]
    rfl

/-- Whatever the strobes, the line the ports show is that of the state after the step. -/
theorem portsOut_irq (h : portStep p s = .next t) : (portsOut p s (portStep p s)).irq = t.irq := by
  cases hp : p.request with
  | none =>
    rw [portsOut_none s hp]
    rw [portStep_none s hp] at h
    cases h
    rfl
  | some r =>
    rw [h, portsOut_next s hp]
    rfl

/-- A step that faults leaves the line as it was. -/
theorem portsOut_irq_of_fault {f : Fault} (h : portStep p s = .fault f) :
    (portsOut p s (portStep p s)).irq = s.irq := by
  cases hp : p.request with
  | none =>
    rw [portsOut_none s hp]
    rfl
  | some r =>
    rw [h, portsOut_fault s hp]
    rfl

/-! ### What reads and writes answer and transmit -/

theorem bytesSent_decodeRead (dlab : Bool) (a : Nat) : bytesSent (decodeRead dlab a) = [] := by
  match a with
  | 0 | 1 | 2 | 3 | 4 | 5 | 6 => cases dlab <;> rfl
  | a + 7 =>
    rw [decodeRead_of_seven_le dlab (by omega)]
    rfl

theorem bytesSent_decodeWrite (dlab : Bool) (a : Nat) (v : Byte) :
    bytesSent (decodeWrite dlab a v) = if a = 0 ∧ dlab = false then [v] else [] := by
  match a with
  | 0 | 1 | 2 | 3 | 4 | 5 | 6 => cases dlab <;> rfl
  | a + 7 =>
    rw [decodeWrite_of_seven_le dlab v (by omega)]
    rfl

/-- A read of a supported address answers a byte (30_encoding.md R90). -/
theorem exec_decodeRead (dlab : Bool) (h : readSupported a = true) (s : State) :
    ∃ t b, exec (decodeRead dlab a) s = .next t ∧ t.response = .byte b := by
  rcases readSupported_iff.1 h with rfl | rfl | rfl | rfl | rfl | rfl
  all_goals cases dlab <;> exact ⟨_, _, rfl, rfl⟩

/-- A write of a supported address answers nothing (R90). -/
theorem exec_decodeWrite (dlab : Bool) (v : Byte) (h : writeSupported a = true) (s : State) :
    ∃ t, exec (decodeWrite dlab a v) s = .next t ∧ t.response = .nothing := by
  rcases writeSupported_iff.1 h with rfl | rfl | rfl | rfl | rfl
  all_goals cases dlab <;> exact ⟨_, rfl, rfl⟩

/-! ### The four strobes -/

/-- The ports of a read. -/
theorem ports_of_read (hp : p.request = some (.read 1 a)) :
    portStep p s = exec (decodeRead s.dlab a) s ∧
    (portsOut p s (portStep p s)).txValid = false ∧ (portsOut p s (portStep p s)).txdata = none ∧
    (portsOut p s (portStep p s)).fault = !readSupported a ∧
    (readSupported a = true → ∃ t b, portStep p s = .next t ∧ t.response = .byte b ∧
      (portsOut p s (portStep p s)).rdata = some b) ∧
    (readSupported a = false → (portsOut p s (portStep p s)).rdata = none) := by
  have hstep := portStep_request s hp (decodeRequest_read_one s.dlab a)
  have hacc := unsupportedAccess_decodeRead s.dlab a
  rw [hstep]
  cases hsupp : readSupported a with
  | true =>
    rw [hsupp] at hacc
    obtain ⟨t, b, ht, hb⟩ := exec_decodeRead s.dlab hsupp s
    rw [portsOut_of_supported hp hacc ht, bytesSent_decodeRead, hb]
    exact ⟨rfl, rfl, rfl, rfl, fun _ => ⟨t, b, ht, hb, rfl⟩, fun h => nomatch h⟩
  | false =>
    rw [hsupp] at hacc
    rw [portsOut_of_unsupported hp (by simp [hacc])]
    exact ⟨rfl, rfl, rfl, rfl, (fun h => nomatch h), fun _ => rfl⟩

/-- The ports of a write. -/
theorem ports_of_write {v : Byte} (hp : p.request = some (.write 1 a v.toNat)) :
    portStep p s = exec (decodeWrite s.dlab a v) s ∧
    (portsOut p s (portStep p s)).rdata = none ∧
    (portsOut p s (portStep p s)).txValid = decide (a = 0 ∧ s.dlab = false) ∧
    (portsOut p s (portStep p s)).txdata = (if a = 0 ∧ s.dlab = false then some v else none) ∧
    (portsOut p s (portStep p s)).fault = !writeSupported a := by
  have hstep := portStep_request s hp (decodeRequest_write_one_toNat s.dlab a v)
  have hacc := unsupportedAccess_decodeWrite s.dlab a v
  rw [hstep]
  cases hsupp : writeSupported a with
  | true =>
    rw [hsupp] at hacc
    obtain ⟨t, ht, hnothing⟩ := exec_decodeWrite s.dlab v hsupp s
    rw [portsOut_of_supported hp hacc ht, bytesSent_decodeWrite, hnothing]
    refine ⟨rfl, rfl, ?_, ?_, rfl⟩ <;> split_ifs with h <;> simp [h]
  | false =>
    rw [hsupp] at hacc
    have hne : ¬ (a = 0 ∧ s.dlab = false) := by
      rintro ⟨rfl, -⟩
      cases hsupp
    rw [portsOut_of_unsupported hp (by simp [hacc]), if_neg hne, decide_eq_false hne]
    exact ⟨rfl, rfl, rfl, rfl, rfl⟩

/-- The ports of an event that answers nothing and transmits nothing. -/
theorem ports_of_silent_event (hp : p.request = some r) (hdecode : decodeRequest s.dlab r = .ok i)
    (hacc : unsupportedAccess i = none) (hsent : bytesSent i = []) (ht : exec i s = .next t)
    (hnothing : t.response = .nothing) :
    portStep p s = exec i s ∧
      portsOut p s (portStep p s) =
        { rdata := none, irq := t.irq, txValid := false, txdata := none, fault := false } := by
  have hstep := portStep_request s hp hdecode
  rw [hstep, portsOut_of_supported hp hacc ht, hsent, hnothing]
  exact ⟨rfl, rfl⟩

end

/-- Settles O52: the strobe presents the request of its kind, and the ports show the event it decodes to. -/
theorem portsShowTheStep : Obligations.PortsShowTheStep := by
  intro s p
  refine ⟨fun hrd hwr hrx hrst => ?read, fun hwr hrd hrx hrst => ?write, fun hrx hrd hwr hrst => ?rx,
    fun hrst hrd hwr hrx => ?rst, fun hrd hwr hrx hrst => ?idle, fun t => portsOut_irq,
    fun f => portsOut_irq_of_fault⟩
  case read => exact ports_of_read (by simp [PortsIn.request, hrd, hwr, hrx, hrst])
  case write =>
    have hp : p.request = some (.write 1 p.addr.toNat p.wdata.toNat) := by
      simp [PortsIn.request, hrd, hwr, hrx, hrst]
    have haddr : p.addr = 0#3 ↔ p.addr.toNat = 0 := by rw [← BitVec.toNat_inj, BitVec.toNat_zero]
    simp only [haddr]
    exact ports_of_write hp
  case rx =>
    have hp : p.request = some (.receive p.rxdata.toNat) := by simp [PortsIn.request, hrd, hwr, hrx, hrst]
    have hdecode : decodeRequest s.dlab (.receive p.rxdata.toNat) = .ok (.rx p.rxdata) := by
      rw [decodeRequest, maskByte_of_toNat]
    obtain ⟨hstep, hports⟩ := ports_of_silent_event hp hdecode rfl rfl rfl rfl
    exact ⟨hstep, _, hstep, hports⟩
  case rst =>
    have hp : p.request = some .reset := by simp [PortsIn.request, hrd, hwr, hrx, hrst]
    exact ports_of_silent_event (t := s.resetRegisters.respond .nothing) hp rfl rfl rfl rfl rfl
  case idle =>
    have hp : p.request = none := by simp [PortsIn.request, hrd, hwr, hrx, hrst]
    exact ⟨portStep_none s hp, portsOut_none s hp _⟩

end Sys2Proof.Machine
end
